-- ==== Sys2Proof/Word.lean ====
section
/-! DEFINITION. The word types of the block: every exchanged word has 16 bits (R6 WORD_W, R45, R70), every queued or received
byte 8 bits (R47). -/

namespace Sys2Proof

/-- A 16-bit command or response word (R45). -/
abbrev Word := BitVec 16

/-- One byte of the Transmit Queue or of a two-byte exchange (R45, R47). -/
abbrev Byte := BitVec 8

/-- A number that is at least 1. -/
abbrev PosNat := { n : Nat // 1 ≤ n }

end Sys2Proof
end

