-- ==== Sys2Proof/Config.lean ====
section
/-! DEFINITION. What is fixed for one block (the parameters of R6 that are a decision of the spec or left open), the shape of
what the agents around the block choose (R5), and the free values: opaque constants, about whose values nothing can be proved. -/

namespace Sys2Proof

/-- One answer of the Transfer Resource to a two-byte exchange: both bytes, high byte first, or an error (R52, R53, R54). -/
inductive Answer where
  | ok (h l : Byte)
  | err
  deriving DecidableEq, Repr, Inhabited

/-- What the arbiter starts first when both an IRQ and a request are pending at IDLE (R23). -/
inductive Pick where
  | irq
  | request
  deriving DecidableEq, Repr, Inhabited

/-- One move of one agent (R5, R61, R131, R161, R169). One step of the model makes one move. DESIGN CHOICE (log 3). -/
inductive Move where
  /-- The Sequencer runs its next micro-step; at IDLE the arbiter starts what `pick` prefers (R22, R23). -/
  | sequencer (pick : Pick)
  /-- The Host does the next thing its script holds (R141). -/
  | host
  /-- The IRQ source makes one falling edge (R131). -/
  | irqSource
  /-- The time base counts `ticks` ticks of TICK_HZ (R32, R161). -/
  | timeBase (ticks : Nat)
  /-- The reset event (R169). -/
  | reset
  deriving DecidableEq, Repr, Inhabited

/-- SPI_BIT_ORDER, the order of the bits of a byte on the SPI wire (R55, D18). -/
inductive BitOrder where
  | msbFirst
  | lsbFirst
  deriving DecidableEq, Repr, Inhabited

/-- The parameters of R6. A state carries them and no step writes them, so a statement about every state is one about every choice
of them. Defaults: `Machine.defaultParams`. WORD_W is the type `Word` (R45, R70). Log 10. -/
structure Params where
  /-- QCAP, the capacity of the Transmit Queue, at least 1. -/
  qcap : PosNat
  /-- R_BIT. -/
  rBit : Fin 16
  /-- T_BIT. -/
  tBit : Fin 16
  /-- The lowest bit of RXBYTE_FIELD; the field is 8 bits wide. -/
  rxLo : Fin 9
  /-- ECHO_MASK. -/
  echoMask : Word
  /-- WCFG_MARK. -/
  wcfgMark : Word
  /-- TM_MASK. -/
  tmMask : Word
  /-- RM_MASK. -/
  rmMask : Word
  /-- ST_MASK. -/
  stMask : Word
  /-- PE_MASK. -/
  peMask : Word
  /-- L_MASK. -/
  lMask : Word
  /-- The lowest bit of BAUD_FIELD; the field is 4 bits wide. -/
  baudLo : Fin 13
  /-- RCFG_WORD. -/
  rcfgWord : Word
  /-- WDATA_MARK. -/
  wdataMark : Word
  /-- PT_MASK. -/
  ptMask : Word
  /-- RTS_MASK. -/
  rtsMask : Word
  /-- TE_MASK. -/
  teMask : Word
  /-- DATA_RTS: whether a data word carries RTS. -/
  dataRts : Bool
  /-- RXEN_WORD where it is given; `none` is R6's own default from the masks, see `Params.rxenWord`. -/
  rxenGiven : Option Word
  /-- PROBE_WORD. -/
  probeWord : Word
  /-- BAUD_TABLE: pairs of a baud rate and its 4-bit index. -/
  baudTable : List (Nat × BitVec 4)
  /-- DEFAULT_BAUD; a divisor (R97), so at least 1. -/
  defaultBaud : PosNat
  /-- DELAY_NUM. -/
  delayNum : Nat
  /-- TICK_HZ, the ticks of the time base in a second. -/
  tickHz : PosNat
  /-- SPI_BIT_ORDER; a property of the Transfer Resource, and no rule reads it (R55, D18). -/
  spiBitOrder : BitOrder
  deriving DecidableEq, Repr

/-- RXEN_WORD, by default `WDATA_MARK | TE_MASK | PT_MASK` (R6, R78). -/
def Params.rxenWord (p : Params) : Word :=
  p.rxenGiven.getD (p.wdataMark ||| p.teMask ||| p.ptMask)

/-- FREE VALUE: the answer of the Transfer Resource to the two outgoing bytes, where no answer is prepared in the state; the
number counts the draws, so equal words may be answered differently (R50, R57, U4, U5). Log 4. -/
opaque Config.freeAnswer : Nat → Byte → Byte → Answer

/-- FREE VALUE: whether the Line Sink keeps a delivered byte (R146, U7). Log 5. -/
opaque Config.freeSinkKeep : Nat → Bool

/-- FREE VALUE: DELAY_OF where the quotient does not fit 16 bits, which R6's default numbers never reach (R15, R97). Log 26. -/
opaque Config.freeDelay : Nat → Word

/-- FREE VALUE: the index of a rate that BAUD_TABLE has no entry for, which R6's default table has for every rate (R96). Log 27. -/
opaque Config.freeIndex : Nat → BitVec 4

/-- FREE VALUE: which agent moves next, where the schedule is empty (R23, R61, R131, R161, U6, U8, U9). Log 3. -/
opaque Config.freeMove : Nat → Move

end Sys2Proof
end

