-- ==== Sys2Proof/Machine/Layout.lean ====
section
/-! DEFINITION. The default values of the R6 parameters, the order of the two bytes of an exchange (R54), word classes, and the fields of a
response word (R79 to R81). -/

namespace Sys2Proof.Machine

/-- BAUD_TABLE, the default table (R96; the entry of 9600 is the source's, the others are D3). -/
def defaultBaudTable : List (Nat × BitVec 4) :=
  [(230400, 0x0), (115200, 0x1), (57600, 0x2), (38400, 0x9), (19200, 0xA),
   (9600, 0xB), (4800, 0xC), (2400, 0xD), (1200, 0xE), (600, 0xF)]

/-- The defaults of R6 (D2 to D8). The spec gives none for QCAP, TICK_HZ and SPI_BIT_ORDER: 4, as in every example of the spec
(D16); one tick a microsecond, since the examples count microseconds (D17); most significant bit first, which no rule reads (D18).
DESIGN CHOICE for these three (log 11). -/
def defaultParams : Params where
  qcap := ⟨4, by decide⟩
  rBit := 15
  tBit := 14
  rxLo := 0
  echoMask := 0x0FFF
  wcfgMark := 0xC000
  tmMask := 0x0800
  rmMask := 0x0400
  stMask := 0x0040
  peMask := 0x0020
  lMask := 0x0010
  baudLo := 0
  rcfgWord := 0x4000
  wdataMark := 0x8000
  ptMask := 0x0100
  rtsMask := 0x0200
  dataRts := true
  teMask := 0x0400
  rxenGiven := none
  probeWord := 0x0000
  baudTable := defaultBaudTable
  defaultBaud := ⟨9600, by decide⟩
  delayNum := 10000000
  tickHz := ⟨1000000, by decide⟩
  spiBitOrder := .msbFirst

/-- Byte 0 of an exchange: bits 15 to 8 of the word (R54). -/
def hiByte (w : Word) : Byte := w.extractLsb' 8 8

/-- Byte 1 of an exchange: bits 7 to 0 of the word (R54). -/
def loByte (w : Word) : Byte := w.extractLsb' 0 8

/-- The word of two bytes, the high one first (R53, R54). -/
def joinBytes (h l : Byte) : Word := h ++ l

/-- The answer that carries the word `v` (R53). -/
def answerOk (v : Word) : Answer := .ok (hiByte v) (loByte v)

/-- R, receive-ready: R_BIT of a response, bit 15 by default (R79). -/
def respR (p : Params) (v : Word) : Bool := v.getLsbD p.rBit

/-- T, transmit-empty: T_BIT of a response, bit 14 by default (R79). -/
def respT (p : Params) (v : Word) : Bool := v.getLsbD p.tBit

/-- RXBYTE_FIELD, the received byte, bits 7 to 0 of a response by default (R81, R85). -/
def respByte (p : Params) (v : Word) : Byte := v.extractLsb' p.rxLo 8

/-- The echo check of PUSH_RCFG: the bits of ECHO_MASK are compared, the low 12 by default (R6, R80, R121). -/
def echoMatches (p : Params) (resp cfg : Word) : Bool :=
  resp &&& p.echoMask == cfg &&& p.echoMask

/-- The classes of wire words (R83). -/
inductive WordClass where
  | writeConfig
  | readConfig
  | writeData
  | readData
  deriving DecidableEq, Repr

/-- The bits that mark a word's class: those of the two marks, bits 15 to 14 by default (R6, R83). -/
def markMask (p : Params) : Word := p.wcfgMark ||| p.wdataMark

/-- The class of a wire word: bits 15 to 14 by default (R83). The three fixed words are of the class R75, R77 and R78 give them, and
every other word of the class whose mark it has. That the marks carry the class in another layout is DEDUCED (R6, G2; log 10). -/
def wordClass (p : Params) (w : Word) : WordClass :=
  if w = p.rcfgWord then .readConfig
  else if w = p.probeWord then .readData
  else if w = p.rxenWord then .writeData
  else if w &&& markMask p = p.wcfgMark then .writeConfig
  else if w &&& markMask p = p.wdataMark then .writeData
  else if w &&& markMask p = p.rcfgWord &&& markMask p then .readConfig
  else .readData

end Sys2Proof.Machine
end

