-- ==== Sys2Proof/Syntax.lean ====
section
/-! DEFINITION. The instructions: one constructor per row of spec/opcode_table.json, four wire-word classes (R74 to R77) and the
sixteen request codes (R71), and the request record of R70. -/

namespace Sys2Proof

/-- A request record: the operation code and every operand field of the request port (R30, R70, R72). -/
structure Request where
  op   : BitVec 4
  d7   : BitVec 1
  st2  : BitVec 1
  par  : BitVec 2
  byte : Byte
  word : Word
  baud : BitVec 32
  deriving DecidableEq, Repr

/-- One constructor per row of spec/opcode_table.json. A constructor carries the operands the operation reads (R72); a wire word's
carries all 16 bits, at the places of the table's row, since what marks its class is a parameter of R6 (log 10). -/
inductive Instr where
  /-- WRITE_CONFIG wire word: `markFenN` is bits 15 to 13, the mark and FEN_n; the others are bits 12 to 0 as R74 lays them out. -/
  | writeConfig (markFenN : BitVec 3) (shdn tm rm pm ram ir st pe l : BitVec 1) (baud : BitVec 4)
  /-- READ_CONFIG wire word, bits 15 to 0 (R75, R83). -/
  | readConfig (x : Word)
  /-- WRITE_DATA wire word: `markZ` is bits 15 to 11, the mark and three bits the block writes 0 (R76). -/
  | writeData (markZ : BitVec 5) (teN rts pt : BitVec 1) (d : Byte)
  /-- READ_DATA wire word, bits 15 to 0 (R77, R83). -/
  | readData (x : Word)
  /-- Code 0x0, reserved (R88). -/
  | reserved0
  /-- Code 0x1 (R101). -/
  | encConfig (baud : BitVec 32) (d7 st2 : BitVec 1) (par : BitVec 2)
  /-- Code 0x2 (R102). -/
  | encData (byte : Byte) (par : BitVec 2)
  /-- Code 0x3 (R103). -/
  | decodeStatus (word : Word)
  /-- Code 0x4 (R100). -/
  | baudIndex (baud : BitVec 32)
  /-- Code 0x5 (R104). -/
  | parityBit (byte : Byte) (par : BitVec 2)
  /-- Code 0x6 (R105). -/
  | delayOf (baud : BitVec 32)
  /-- Code 0x7 (R119). -/
  | applyConfig (baud : BitVec 32) (d7 st2 : BitVec 1) (par : BitVec 2)
  /-- Code 0x8 (R121). -/
  | pushConfig
  /-- Code 0x9 (R123). -/
  | kick
  /-- Code 0xA, queue write port (R111). -/
  | enqueue (byte : Byte)
  /-- Code 0xB, internal (R112). -/
  | dequeue
  /-- Code 0xC, internal (R133). -/
  | irqDispatch
  /-- Code 0xD, internal (R126). -/
  | serviceTx
  /-- Code 0xE, internal (R128). -/
  | serviceRx
  /-- Code 0xF, reserved (R88). -/
  | reservedF
  deriving DecidableEq, Repr

end Sys2Proof
end

