-- ==== Sys2Proof/Machine/State.lean ====
section
/-! DEFINITION. The state: every piece 10_state.md gives the block, its ports, and the agents around it (R5), as plain data. -/

namespace Sys2Proof.Machine

/-- A register that may be unwritten: `unw` is UNW, the reset value the spec itself gives and tests for (R10, R36). Log 2. -/
inductive Reg (α : Type) where
  | unw
  | val (v : α)
  deriving DecidableEq, Repr

/-- The micro-step register (R22). -/
inductive Phase where
  | idle
  | pushWcfg
  | pushRcfg
  | pushRxen
  | kickTest
  | kickDeq
  | kickWdata
  | dispProbe
  | dispRx
  | stxDeq
  | stxWdata
  | stxClr
  | stxWait
  | stxRxen
  deriving DecidableEq, Repr

/-- The result codes of R151, in the order of their numbers 0 to 3. -/
inductive ResultCode where
  | ok
  | configRejected
  | refused
  | faulted
  deriving DecidableEq, Repr

/-- The data value a pure codec operation returns with OK (R26, R100 to R105). Log 9. -/
inductive ResultData where
  | noData
  | word (w : Word)
  | status (receiveReady transmitEmpty : Bool) (receivedByte : Byte)
  deriving DecidableEq, Repr

/-- The contents of `result` (R26). -/
structure Result where
  code : ResultCode
  data : ResultData
  deriving DecidableEq, Repr

/-- The answers of the queue write port, 0 = OK and 1 = FULL (R111, R151). -/
inductive QueueAnswer where
  | ok
  | full
  deriving DecidableEq, Repr

/-- The registers whose reset value is UNW (R36). -/
inductive RegName where
  | curCfg
  | pendingCfg
  | delayUs
  | parEn
  | parOdd
  | tResp
  | tByte
  | waitElapsed
  deriving DecidableEq, Repr

/-- The model faults and refusals of R154. They are recorded, and the machine goes on (R153, R156). -/
inductive FaultKind where
  /-- UNWRITTEN(reg): a micro-step read `r` while UNW (R10). -/
  | unwritten (r : RegName)
  /-- REFUSED_OP(op): a reserved or internal code on the request port (R88). -/
  | refusedOp (op : BitVec 4)
  /-- REFUSED_OPERAND(par): the parity code 0b11 (R90). -/
  | refusedPar
  deriving DecidableEq, Repr

/-- One entry of `faults`: the kind, the phase it was raised in, the code of the running operation (R155). -/
structure FaultEntry where
  kind  : FaultKind
  phase : Phase
  op    : BitVec 4
  deriving DecidableEq, Repr

/-- The outcome of an exchange as `history` records it (R28, R53). -/
inductive XferResult where
  | ok (v : Word)
  | err
  deriving DecidableEq, Repr

/-- The operands a request event shows: those its operation reads (R28, R72). Log 15. -/
inductive Operands where
  | noOperands
  | line (baud : BitVec 32) (d7 st2 : BitVec 1) (par : BitVec 2)
  | data (byte : Byte) (par : BitVec 2)
  | word (w : Word)
  | baud (baud : BitVec 32)
  deriving DecidableEq, Repr

/-- The external events (R28), and the fault event of R155. -/
inductive Event where
  | xfer (w : Word) (r : XferResult)
  | deliver (b : Byte)
  | waitBegin (us : Word)
  | waitEnd
  | enq (b : Byte) (a : QueueAnswer)
  | deq (r : Option Byte)
  | irqEdge
  | req (op : BitVec 4) (ops : Operands)
  | done (op : BitVec 4) (r : Result)
  | fault (k : FaultKind)
  deriving DecidableEq, Repr

/-- What the Host's script may hold: requests and ENQUEUEs (R92), the macros LINECFG and WRITE (R94), open, close and write room
(R144, R145). `lineReport` is the second half of LINECFG: it hands the PUSH result to the caller (R143). `edge`, `answer` and
`sink` are R92's environment lines: at their place in the script they reach the agent they name. -/
inductive HostCmd where
  | request (r : Request)
  | enqueue (b : Byte)
  | lineCfg (baud : BitVec 32) (d7 st2 : BitVec 1) (par : BitVec 2)
  | lineReport
  | write (bs : List Byte)
  | openSession
  | closeSession
  | writeRoom
  | edge
  | answer (a : Answer)
  | sink (keep : Bool)
  deriving DecidableEq, Repr

/-- What the Host's caller is told (R143 to R145). -/
inductive HostReply where
  /-- The PUSH result of a LINECFG (R94, R143). -/
  | lineResult (r : Option Result)
  | sessionOpened
  /-- SessionConflict, "device busy" (R144, R152). -/
  | deviceBusy
  | sessionClosed
  /-- The write-room answer is always "unbounded" (R145). -/
  | unbounded
  deriving DecidableEq, Repr

/-- The Host agent (R141 to R145). The model's own state (log 19). -/
structure HostAgent where
  /-- The commands not begun. -/
  script  : List HostCmd
  /-- What is still to do of the macro begun (R142, R143). -/
  current : List HostCmd
  session : Bool
  replies : List HostReply
  deriving DecidableEq, Repr

/-- What the agents around the block will choose, and what the Line Sink kept. The model's own state (log 3, log 4, log 5). -/
structure Env where
  /-- The moves still to be made, first one first; when empty, `Config.freeMove` chooses. -/
  schedule  : List Move
  /-- The answers the Transfer Resource gives first (R92); when empty, `Config.freeAnswer` chooses. -/
  answers   : List Answer
  /-- The Line Sink's first draws, true = keep (R146); when empty, `Config.freeSinkKeep` chooses. -/
  sinkDraws : List Bool
  /-- Whether the IRQ source makes no edge but those of the schedule and the script (R184: "no `!irq` event left"). -/
  quiet     : Bool
  /-- How many free values were drawn. -/
  draws     : Nat
  /-- The bytes the Line Sink kept. -/
  line      : List Byte
  deriving DecidableEq, Repr

/-- The state of the block (10_state.md), its ports (R30 to R33), its parameters (R6) and the agents around it. -/
structure State where
  /-- R12. -/
  curCfg      : Reg Word
  /-- R14. -/
  pendingCfg  : Reg Word
  /-- R15. -/
  delayUs     : Reg Word
  /-- R16. -/
  parEn       : Reg Bool
  /-- R17. -/
  parOdd      : Reg Bool
  /-- R18, oldest byte first. -/
  txq         : List Byte
  /-- R20. -/
  irqPending  : Bool
  /-- R21. -/
  hostReq     : Option Request
  /-- R22. -/
  phase       : Phase
  /-- R24. -/
  tResp       : Reg Word
  /-- R24. -/
  tByte       : Reg Byte
  /-- R25. -/
  waitElapsed : Reg Nat
  /-- The model's own: what the ticks counted in STX_WAIT leave over of a microsecond, in parts of 1/TICK_HZ. Log 18. -/
  tickRest    : Nat
  /-- R26. -/
  result      : Option Result
  /-- R27, R155: a set, kept as a list without repeats. Log 22. -/
  faults      : List FaultEntry
  /-- R28. -/
  history     : List Event
  /-- R31: the last answer of the queue write port. -/
  qAnswer     : Option QueueAnswer
  /-- R33: a word put on the transfer port and not yet exchanged; none between micro-steps (R48). Log 13. -/
  portOut     : Option Word
  /-- R6. -/
  params      : Params
  /-- R5, R34. -/
  env         : Env
  /-- R141. -/
  host        : HostAgent
  deriving DecidableEq, Repr

/-- Why the machine would stop with a fault: never. R153: "No error is fatal"; the model faults of R154 are recorded in
`State.faults` and the machine goes on (R156). Log 25. -/
inductive Fault where
  deriving DecidableEq, Repr

/-- Why the machine would refuse an instruction. -/
inductive Refusal where
  /-- An instruction that has no meaning in the model. No arm answers with it: every row of the table has its meaning. Safe. -/
  | notModelled (mnemonic : String)
  deriving DecidableEq, Repr

/-- Nothing prepared by the agents, nothing drawn, nothing kept. DESIGN CHOICE (log 20). -/
def Env.reset : Env :=
  { schedule := [], answers := [], sinkDraws := [], quiet := false, draws := 0, line := [] }

/-- No script, no session, no replies. DESIGN CHOICE (log 20). -/
def HostAgent.reset : HostAgent := { script := [], current := [], session := false, replies := [] }

/-- The state after reset: R36 for the block; nothing on the ports; the default parameters (log 11); agents at rest (log 20). -/
def State.reset : State where
  curCfg := .unw
  pendingCfg := .unw
  delayUs := .unw
  parEn := .unw
  parOdd := .unw
  txq := []
  irqPending := false
  hostReq := none
  phase := .idle
  tResp := .unw
  tByte := .unw
  waitElapsed := .unw
  tickRest := 0
  result := none
  faults := []
  history := []
  qAnswer := none
  portOut := none
  params := defaultParams
  env := Env.reset
  host := HostAgent.reset

end Sys2Proof.Machine
end

