-- ==== Sys2Proof/Machine/Codec.lean ====
section
/-! DEFINITION. The Frame Codec's functions (40_codec.md section 1 and the words of R101, R102), pure and without state. -/

namespace Sys2Proof.Machine

/-- The parity modes (R73, R98). -/
inductive ParMode where
  | none
  | even
  | odd
  deriving DecidableEq, Repr

/-- S, the supported baud rates (R95). -/
def supportedBauds : List Nat :=
  [600, 1200, 2400, 4800, 9600, 19200, 38400, 57600, 115200, 230400]

/-- `eff(baud)`: the fallback is DEFAULT_BAUD (R95). -/
def effBaud (p : Params) (baud : BitVec 32) : Nat :=
  if baud.toNat ∈ supportedBauds then baud.toNat else p.defaultBaud

/-- The entry of a rate in a baud table. R96's table has every rate of S; for a rate without an entry the spec states no index: a free
value. DESIGN CHOICE (log 27). -/
def tableIndex (t : List (Nat × BitVec 4)) (rate : Nat) : BitVec 4 :=
  ((t.find? fun e => e.1 == rate).map Prod.snd).getD (Config.freeIndex rate)

/-- BAUD_INDEX of an operand: `BAUD_TABLE[eff(baud)]` (R84, R100). -/
def baudIndexOf (p : Params) (baud : BitVec 32) : BitVec 4 := tableIndex p.baudTable (effBaud p baud)

/-- DELAY_OF in microseconds, DELAY_NUM by the effective rate, rounded toward zero (R97). With R6's numbers 16 bits hold it (R15);
for a quotient they do not hold, with other numbers, the spec states no result: a free value. DESIGN CHOICE (log 26). -/
def delayOfBaud (p : Params) (baud : BitVec 32) : Word :=
  if p.delayNum / effBaud p baud < 2 ^ 16 then BitVec.ofNat 16 (p.delayNum / effBaud p baud)
  else Config.freeDelay (p.delayNum / effBaud p baud)

/-- The number of set bits of a byte, all 8 of them counted (R8, R109). -/
def popcount8 (b : Byte) : Nat := ((List.range 8).filter fun i => b.getLsbD i).length

/-- PARITY_BIT (R98). -/
def parityOf (b : Byte) : ParMode → Bool
  | .none => false
  | .even => popcount8 b % 2 == 1
  | .odd => popcount8 b % 2 == 0

/-- A flag's mask where the flag is set, else no bit. -/
def flagBits (set : Bool) (mask : Word) : Word := if set then mask else 0

/-- The configuration word of ENC_CONFIG (R101); its TM is 0. -/
def configWord (p : Params) (baud : BitVec 32) (d7 st2 : BitVec 1) (m : ParMode) : Word :=
  p.wcfgMark ||| p.rmMask ||| flagBits (st2 == 1) p.stMask ||| flagBits (m != .none) p.peMask
    ||| flagBits (d7 == 1) p.lMask ||| (baudIndexOf p baud).setWidth 16 <<< (p.baudLo : Nat)

/-- The data word of ENC_DATA (R102). -/
def dataWord (p : Params) (b : Byte) (m : ParMode) : Word :=
  p.wdataMark ||| flagBits p.dataRts p.rtsMask ||| flagBits (parityOf b m) p.ptMask ||| b.setWidth 16

/-- The three fields of a status word (R103). -/
def statusOf (p : Params) (w : Word) : ResultData := .status (respR p w) (respT p w) (respByte p w)

end Sys2Proof.Machine
end

