-- ==== Sys2Proof/Machine/Flags.lean ====
section
/-! DEFINITION. The flags kept in registers: TM in a configuration word (R29, R87), and the parity flags APPLY_CONFIG derives
from the mode (R16, R17). R and T of a response stand in Machine/Layout.lean. -/

namespace Sys2Proof.Machine

/-- Whether TM is set in a configuration word (R123). -/
def tmSet (p : Params) (cfg : Word) : Bool := cfg &&& p.tmMask != 0

/-- TM set, every other bit as it was (R87). -/
def withTm (p : Params) (cfg : Word) : Word := cfg ||| p.tmMask

/-- TM cleared, every other bit as it was (R87). -/
def withoutTm (p : Params) (cfg : Word) : Word := cfg &&& ~~~ p.tmMask

/-- `par_en` of a mode (R16). -/
def parEnOf (m : ParMode) : Bool := m != .none

/-- `par_odd` of a mode (R17). -/
def parOddOf (m : ParMode) : Bool := m == .odd

end Sys2Proof.Machine
end

