-- ==== Sys2Proof/Machine/Operands.lean ====
section
/-! DEFINITION. Operand forms: the parity code of a request (R73, R90), and the parity mode the Sequencer takes from its
registers (R125). -/

namespace Sys2Proof.Machine

/-- The mode a parity code means; 0b11 is reserved (R73). -/
def parModeOf (par : BitVec 2) : Option ParMode :=
  if par = 0 then some .none
  else if par = 1 then some .even
  else if par = 2 then some .odd
  else none

/-- The mode of the Parity Polarity flags (R125). -/
def regParMode (parEn parOdd : Bool) : ParMode :=
  if parEn then (if parOdd then .odd else .even) else .none

end Sys2Proof.Machine
end

