-- ==== Sys2Proof/Machine/Ops.lean ====
section
/-! DEFINITION. The operations every meaning is built from: recording events, the exchange, the queue, delivery, the start and
end of a request, and raising a fault or a refusal (R154 to R157). -/

namespace Sys2Proof.Machine

/-- Append an event to the history (R28). -/
def logEvent (e : Event) (s : State) : State := { s with history := s.history ++ [e] }

/-- Write the micro-step register (R22). -/
def setPhase (p : Phase) (s : State) : State := { s with phase := p }

/-- Both temporaries become UNW (R24). -/
def clearTemps (s : State) : State := { s with tResp := .unw, tByte := .unw }

/-- An operation reaches IDLE; its temporaries are its own and end with it (R24). Log 8. -/
def endOperation (s : State) : State := setPhase .idle (clearTemps s)

/-! ### The exchange -/

/-- What the Transfer Resource answers to the two bytes of `w`: the next prepared answer, else a free value (R53, R57). -/
def answerFor (w : Word) (env : Env) : Answer :=
  match env.answers with
  | a :: _ => a
  | [] => Config.freeAnswer env.draws (hiByte w) (loByte w)

/-- An answer is used once (R49, R50). -/
def spendAnswer (env : Env) : Env :=
  match env.answers with
  | _ :: rest => { env with answers := rest }
  | [] => { env with draws := env.draws + 1 }

/-- The response of an exchange: the joined bytes, or 0x0000 on an error (R53, R56). -/
def responseOf : Answer → Word
  | .ok h l => joinBytes h l
  | .err => 0x0000

/-- The outcome of an exchange as it is recorded (R53). -/
def outcomeOf : Answer → XferResult
  | .ok h l => .ok (joinBytes h l)
  | .err => .err

/-- The 16-bit response `Xfer(w)` returns (R53). -/
def xferResp (w : Word) (s : State) : Word := responseOf (answerFor w s.env)

/-- The state after `Xfer(w)`: one event, one answer spent, nothing else (R53). -/
def xfer (w : Word) (s : State) : State :=
  logEvent (.xfer w (outcomeOf (answerFor w s.env))) { s with env := spendAnswer s.env }

/-- Send a WRITE_CONFIG word: `cur_cfg` is written before the exchange and keeps it whatever the outcome (D11, R121, R123, R126). -/
def sendConfig (w : Word) (s : State) : State := xfer w { s with curCfg := .val w }

/-- Send a word and keep its response in `t_resp` (R121, R123, R133). -/
def sendAndKeep (w : Word) (s : State) : State := { xfer w s with tResp := .val (xferResp w s) }

/-- Send a WRITE_DATA word; its response is discarded (R81). -/
def sendData (w : Word) (s : State) : State := xfer w s

/-! ### The Transmit Queue and the Line Sink -/

/-- `Enq(b)` on the queue write port: FULL leaves the queue as it was (R111). -/
def enq (b : Byte) (s : State) : State :=
  if s.txq.length = (s.params.qcap : Nat) then logEvent (.enq b .full) { s with qAnswer := some .full }
  else logEvent (.enq b .ok) { s with txq := s.txq ++ [b], qAnswer := some .ok }

/-- What `Deq()` returns: the oldest byte, or None on an empty queue (R112). -/
def deqResult (s : State) : Option Byte := s.txq.head?

/-- The state after `Deq()` (R112). -/
def deq (s : State) : State := logEvent (.deq (deqResult s)) { s with txq := s.txq.tail }

/-- Whether the Line Sink keeps the byte: its next draw, else a free value (R146). -/
def sinkKeeps (env : Env) : Bool :=
  match env.sinkDraws with
  | k :: _ => k
  | [] => Config.freeSinkKeep env.draws

/-- A draw of the Line Sink is used once. -/
def spendSinkDraw (env : Env) : Env :=
  match env.sinkDraws with
  | _ :: rest => { env with sinkDraws := rest }
  | [] => { env with draws := env.draws + 1 }

/-- The Line Sink after one delivery (R146). -/
def sinkTake (b : Byte) (env : Env) : Env :=
  { spendSinkDraw env with line := if sinkKeeps env then env.line ++ [b] else env.line }

/-- `Deliver(b)`: one event; the block is not told what the sink did (R128, R146). -/
def deliver (b : Byte) (s : State) : State :=
  logEvent (.deliver b) { s with env := sinkTake b s.env }

/-! ### Requests, faults and refusals -/

/-- The req event of a request (R28). -/
def beginRequest (op : BitVec 4) (ops : Operands) (s : State) : State := logEvent (.req op ops) s

/-- The start of a request's operation: the req event, and the temporaries UNW (R24, R28). -/
def startRequest (op : BitVec 4) (ops : Operands) (s : State) : State :=
  clearTemps (beginRequest op ops s)

/-- The answer to a request: `result`, the done event, IDLE (R26, R30). -/
def finish (op : BitVec 4) (r : Result) (s : State) : State :=
  logEvent (.done op r) { s with result := some r, phase := .idle }

/-- The end of a request's operation: its temporaries end with it (R24), and the request is answered. -/
def complete (op : BitVec 4) (r : Result) (s : State) : State := finish op r (clearTemps s)

/-- The result of a request without a data value. -/
def plain (c : ResultCode) : Result := { code := c, data := .noData }

/-- The operation in progress in each phase (R22); its code is the one a fault entry shows (R155, and log 16 for the service
phases). None at IDLE (R35 I5). -/
def phaseOp : Phase → Option Instr
  | .idle => none
  | .pushWcfg | .pushRcfg | .pushRxen => some .pushConfig
  | .kickTest | .kickDeq | .kickWdata => some .kick
  | .dispProbe => some .irqDispatch
  | .dispRx => some .serviceRx
  | .stxDeq | .stxWdata | .stxClr | .stxWait | .stxRxen => some .serviceTx

/-- The code of the host request in progress, if the phase is one of a host request's (R21, R71). -/
def hostOp : Phase → Option (BitVec 4)
  | .pushWcfg | .pushRcfg | .pushRxen => some 0x8
  | .kickTest | .kickDeq | .kickWdata => some 0x9
  | .idle | .dispProbe | .dispRx | .stxDeq | .stxWdata | .stxClr | .stxWait | .stxRxen => none

/-- Add an entry to the set of faults (R27). -/
def insertFault (e : FaultEntry) (fs : List FaultEntry) : List FaultEntry :=
  if e ∈ fs then fs else fs ++ [e]

/-- `raise Fault(kind)`: recorded with the phase and the running code, and as an event (R155). -/
def raise (kind : FaultKind) (op : BitVec 4) (s : State) : State :=
  logEvent (.fault kind) { s with faults := insertFault ⟨kind, s.phase, op⟩ s.faults }

/-- TAKING A FAULT inside an operation: it is recorded, and the operation ends at IDLE, with FAULTED for a host request and
no result for a dispatch, whose code is 0xC (R155, R156). -/
def takeFault (kind : FaultKind) (s : State) : State :=
  match hostOp s.phase with
  | some op => complete op (plain .faulted) (raise kind op s)
  | none => endOperation (raise kind 0xC s)

/-- A REFUSED request: decided before its first micro-step, recorded, result REFUSED, and no register is written (R88, R90, R156);
the temporaries are UNW at IDLE anyway (log 8). -/
def refuse (op : BitVec 4) (ops : Operands) (kind : FaultKind) (s : State) : State :=
  finish op (plain .refused) (raise kind op (beginRequest op ops s))

/-- Go on with a register's value, or take the fault UNWRITTEN(reg) if it has none (R10, R156). -/
def withReg {α : Type} (r : Reg α) (name : RegName) (s : State) (k : α → State) : State :=
  match r with
  | .val v => k v
  | .unw => takeFault (.unwritten name) s

/-! ### Requests that start only at IDLE -/

/-- A request starts only at IDLE; otherwise it waits and nothing happens (R23). -/
def atIdle (s : State) (start : State → State) : State := if s.phase = .idle then start s else s

/-- A pure codec request: done in one step, writing `result` and `history` (R107); the temporaries, which are UNW at IDLE, are UNW
as at every start (R24). -/
def pureRequest (op : BitVec 4) (ops : Operands) (d : ResultData) (s : State) : State :=
  atIdle s fun s => complete op { code := .ok, data := d } (startRequest op ops s)

/-- A refused request (R88, R90). -/
def refusedRequest (op : BitVec 4) (ops : Operands) (kind : FaultKind) (s : State) : State :=
  atIdle s (refuse op ops kind)

/-- A request that reads a parity code: refused for the reserved one (R90). -/
def parRequest (op : BitVec 4) (ops : Operands) (par : BitVec 2) (s : State)
    (go : ParMode → State) : State :=
  match parModeOf par with
  | some m => go m
  | none => refusedRequest op ops .refusedPar s

end Sys2Proof.Machine
end

