-- ==== Sys2Proof/Machine/CodecOps.lean ====
section
/-! DEFINITION. The six pure codec requests (40_codec.md section 2). Each starts only at IDLE and is done in one step (R107). -/

namespace Sys2Proof.Machine

/-- ENC_CONFIG (R101). -/
def execEncConfig (baud : BitVec 32) (d7 st2 : BitVec 1) (par : BitVec 2) (s : State) :
    Host.Outcome State Fault Refusal :=
  .next (parRequest 0x1 (.line baud d7 st2 par) par s fun m =>
    pureRequest 0x1 (.line baud d7 st2 par) (.word (configWord s.params baud d7 st2 m)) s)

/-- ENC_DATA (R102). -/
def execEncData (byte : Byte) (par : BitVec 2) (s : State) : Host.Outcome State Fault Refusal :=
  .next (parRequest 0x2 (.data byte par) par s fun m =>
    pureRequest 0x2 (.data byte par) (.word (dataWord s.params byte m)) s)

/-- DECODE_STATUS (R103). -/
def execDecodeStatus (word : Word) (s : State) : Host.Outcome State Fault Refusal :=
  .next (pureRequest 0x3 (.word word) (statusOf s.params word) s)

/-- BAUD_INDEX (R100). -/
def execBaudIndex (baud : BitVec 32) (s : State) : Host.Outcome State Fault Refusal :=
  .next (pureRequest 0x4 (.baud baud) (.word ((baudIndexOf s.params baud).setWidth 16)) s)

/-- PARITY_BIT (R104). -/
def execParityBit (byte : Byte) (par : BitVec 2) (s : State) : Host.Outcome State Fault Refusal :=
  .next (parRequest 0x5 (.data byte par) par s fun m =>
    pureRequest 0x5 (.data byte par) (.word (flagBits (parityOf byte m) 1)) s)

/-- DELAY_OF (R105). -/
def execDelayOf (baud : BitVec 32) (s : State) : Host.Outcome State Fault Refusal :=
  .next (pureRequest 0x6 (.baud baud) (.word (delayOfBaud s.params baud)) s)

end Sys2Proof.Machine
end

