-- ==== Sys2Proof/Machine/MicroSteps.lean ====
section
/-! DEFINITION. The micro-steps of the Sequencer, one definition per phase other than IDLE (42_sequencer.md, 43_dispatch.md).
Each reads every register it needs before its external event (R156), in the order of the spec's pseudocode (R157). -/

namespace Sys2Proof.Machine

/-- ENC_DATA_REG: the data word of a byte under the parity registers; both are read, `par_en` first (R125). -/
def withDataWord (b : Byte) (s : State) (k : Word → State) : State :=
  withReg s.parEn .parEn s fun en =>
    withReg s.parOdd .parOdd s fun odd => k (dataWord s.params b (regParMode en odd))

/-- PUSH_WCFG (R121). -/
def microPushWcfg (s : State) : State :=
  withReg s.pendingCfg .pendingCfg s fun p => setPhase .pushRcfg (sendConfig p s)

/-- PUSH_RCFG (R121). -/
def microPushRcfg (s : State) : State :=
  withReg s.curCfg .curCfg s fun cfg =>
    let sent := sendAndKeep s.params.rcfgWord s
    if echoMatches s.params (xferResp s.params.rcfgWord s) cfg then setPhase .pushRxen sent
    else complete 0x8 (plain .configRejected) sent

/-- PUSH_RXEN (R121). -/
def microPushRxen (s : State) : State :=
  complete 0x8 (plain .ok) (sendData s.params.rxenWord s)

/-- KICK_TEST (R123). -/
def microKickTest (s : State) : State :=
  withReg s.curCfg .curCfg s fun cfg =>
    if tmSet s.params cfg then complete 0x9 (plain .ok) s
    else
      let armed := withTm s.params cfg
      let resp := xferResp armed s
      let sent := { sendConfig armed s with tResp := .val resp }
      if respT s.params resp then setPhase .kickDeq sent else complete 0x9 (plain .ok) sent

/-- KICK_DEQ (R124). -/
def microKickDeq (s : State) : State :=
  match deqResult s with
  | some b => { deq s with tByte := .val b, phase := .kickWdata }
  | none => complete 0x9 (plain .ok) (deq s)

/-- KICK_WDATA (R124). -/
def microKickWdata (s : State) : State :=
  withReg s.tByte .tByte s fun b =>
    withDataWord b s fun w => complete 0x9 (plain .ok) (sendData w s)

/-- DISP_PROBE: receive-ready before transmit-empty, else spurious (R133, R134, R135). -/
def microDispProbe (s : State) : State :=
  let resp := xferResp s.params.probeWord s
  let sent := sendAndKeep s.params.probeWord s
  if respR s.params resp then setPhase .dispRx sent
  else if respT s.params resp then setPhase .stxDeq sent
  else endOperation sent

/-- DISP_RX (R128). -/
def microDispRx (s : State) : State :=
  withReg s.tResp .tResp s fun resp => endOperation (deliver (respByte s.params resp) s)

/-- STX_DEQ (R126). -/
def microStxDeq (s : State) : State :=
  match deqResult s with
  | some b => { deq s with tByte := .val b, phase := .stxWdata }
  | none => setPhase .stxClr (deq s)

/-- STX_WDATA (R126). -/
def microStxWdata (s : State) : State :=
  withReg s.tByte .tByte s fun b =>
    withDataWord b s fun w => endOperation (sendData w s)

/-- STX_CLR: `delay_us` is read first (R126, C8). -/
def microStxClr (s : State) : State :=
  withReg s.delayUs .delayUs s fun d =>
    withReg s.curCfg .curCfg s fun cfg =>
      let sent := sendConfig (withoutTm s.params cfg) s
      logEvent (.waitBegin d) { sent with waitElapsed := .val 0, tickRest := 0, phase := .stxWait }

/-- STX_WAIT: held while less than `delay_us` microseconds have passed (R126, R161). Log 17. -/
def microStxWait (s : State) : State :=
  withReg s.delayUs .delayUs s fun d =>
    withReg s.waitElapsed .waitElapsed s fun us =>
      if us < d.toNat then s
      else logEvent .waitEnd { s with waitElapsed := .unw, tickRest := 0, phase := .stxRxen }

/-- STX_RXEN (R126). -/
def microStxRxen (s : State) : State :=
  endOperation (sendData s.params.rxenWord s)

end Sys2Proof.Machine
end

