-- ==== Sys2Proof/Machine/Dispatcher.lean ====
section
/-! DEFINITION. The Interrupt Dispatcher (43_dispatch.md): the edge latch and IRQ_DISPATCH. Entry saves nothing and has no vector
(R136), the return is reaching IDLE and restores nothing (R137, R160). -/

namespace Sys2Proof.Machine

/-- A falling edge: the event and the latch, in any phase (R131). -/
def irqEdge (s : State) : State := logEvent .irqEdge { s with irqPending := true }

/-- TAKING THE INTERRUPT: the latch is cleared, the temporaries are UNW, the phase is DISP_PROBE (R133, R136). -/
def enterDispatch (s : State) : State :=
  setPhase .dispProbe (clearTemps { s with irqPending := false })

/-- IRQ_DISPATCH: it starts only at IDLE with an edge pending, and the start and DISP_PROBE are one micro-step (R133). In any other
phase but its own, and with no edge pending, it does not start, and nothing happens (R138). -/
def execIrqDispatch (s : State) : Host.Outcome State Fault Refusal :=
  .next (match s.phase with
    | .idle => if s.irqPending then microDispProbe (enterDispatch s) else s
    | .dispProbe => microDispProbe s
    | _ => s)

end Sys2Proof.Machine
end

