-- ==== Sys2Proof/Machine/Queue.lean ====
section
/-! DEFINITION. The Transmit Queue's operations as instructions (41_queue.md). -/

namespace Sys2Proof.Machine

/-- ENQUEUE on the queue write port, in any phase (R111). -/
def execEnqueue (byte : Byte) (s : State) : Host.Outcome State Fault Refusal :=
  .next (enq byte s)

/-- DEQUEUE, used only by the micro-steps KICK_DEQ and STX_DEQ: it runs the one in whose phase the Sequencer is (R112). In any
other phase it is not started, and nothing happens. Log 14. -/
def execDequeue (s : State) : Host.Outcome State Fault Refusal :=
  .next (match s.phase with
    | .kickDeq => microKickDeq s
    | .stxDeq => microStxDeq s
    | _ => s)

end Sys2Proof.Machine
end

