-- ==== Sys2Proof/Machine/Reserved.lean ====
section
/-! DEFINITION. The reserved operation codes 0x0 and 0xF: the request is refused, a fault recorded, the result REFUSED (R88). -/

namespace Sys2Proof.Machine

/-- Code 0x0 (R88). -/
def execReserved0 (s : State) : Host.Outcome State Fault Refusal :=
  .next (refusedRequest 0x0 .noOperands (.refusedOp 0x0) s)

/-- Code 0xF (R88). -/
def execReservedF (s : State) : Host.Outcome State Fault Refusal :=
  .next (refusedRequest 0xF .noOperands (.refusedOp 0xF) s)

end Sys2Proof.Machine
end

