-- ==== Sys2Proof/Machine/Sequencer.lean ====
section
/-! DEFINITION. The operations of the Transfer Orchestrator (42_sequencer.md). A meaning runs ONE micro-step of its operation: at
IDLE the start and the first micro-step together (log 7), in a phase of the operation that phase's micro-step. In a phase of
another operation it waits, and nothing happens (R23, R58). -/

namespace Sys2Proof.Machine

/-- The registers APPLY_CONFIG writes (R119, R120). -/
def applyRegs (baud : BitVec 32) (d7 st2 : BitVec 1) (m : ParMode) (s : State) : State :=
  { s with
    pendingCfg := .val (configWord s.params baud d7 st2 m)
    delayUs := .val (delayOfBaud s.params baud)
    parEn := .val (parEnOf m)
    parOdd := .val (parOddOf m) }

/-- APPLY_CONFIG (R119): one micro-step, no exchange. -/
def execApplyConfig (baud : BitVec 32) (d7 st2 : BitVec 1) (par : BitVec 2) (s : State) :
    Host.Outcome State Fault Refusal :=
  .next (parRequest 0x7 (.line baud d7 st2 par) par s fun m =>
    atIdle s fun s =>
      complete 0x7 (plain .ok)
        (applyRegs baud d7 st2 m (startRequest 0x7 (.line baud d7 st2 par) s)))

/-- PUSH_CONFIG (R121, R122). -/
def execPushConfig (s : State) : Host.Outcome State Fault Refusal :=
  .next (match s.phase with
    | .idle => microPushWcfg (setPhase .pushWcfg (startRequest 0x8 .noOperands s))
    | .pushWcfg => microPushWcfg s
    | .pushRcfg => microPushRcfg s
    | .pushRxen => microPushRxen s
    | _ => s)

/-- KICK (R123, R124, R130). -/
def execKick (s : State) : Host.Outcome State Fault Refusal :=
  .next (match s.phase with
    | .idle => microKickTest (setPhase .kickTest (startRequest 0x9 .noOperands s))
    | .kickTest => microKickTest s
    | .kickDeq => microKickDeq s
    | .kickWdata => microKickWdata s
    | _ => s)

/-- SERVICE_TX (R126, R127), entered by IRQ_DISPATCH at STX_DEQ. -/
def execServiceTx (s : State) : Host.Outcome State Fault Refusal :=
  .next (match s.phase with
    | .stxDeq => microStxDeq s
    | .stxWdata => microStxWdata s
    | .stxClr => microStxClr s
    | .stxWait => microStxWait s
    | .stxRxen => microStxRxen s
    | _ => s)

/-- SERVICE_RX (R128), entered by IRQ_DISPATCH at DISP_RX. -/
def execServiceRx (s : State) : Host.Outcome State Fault Refusal :=
  .next (match s.phase with
    | .dispRx => microDispRx s
    | _ => s)

end Sys2Proof.Machine
end

