-- ==== Sys2Proof/WellFormed.lean ====
section
/-! DEFINITION. Well-formed instructions: no reserved code (R88), no reserved parity code (R90), and in a wire word the bits the
spec fixes at one value for every word the block writes, by R6's default layout (R13, R74 to R77, R89). The machine gives every instruction a meaning,
an ill-formed one included (a reserved request is refused, R88, R90; any word can be exchanged, R53). -/

namespace Sys2Proof

/-- The reserved parity code is 0b11 (R73, R90). -/
def legalPar (par : BitVec 2) : Bool := par != 3

/-- Whether bits 15 to 14 of a wire word are the ones of its row of the opcode table (R74 to R77, R83); true of a request. -/
def Instr.tableMark : Instr → Bool
  | .writeConfig markFenN .. => markFenN.extractLsb' 1 2 == 3
  | .readConfig x => x.extractLsb' 14 2 == 1
  | .writeData markZ .. => markZ.extractLsb' 3 2 == 2
  | .readData x => x.extractLsb' 14 2 == 0
  | .reserved0 | .encConfig .. | .encData .. | .decodeStatus .. | .baudIndex .. | .parityBit ..
  | .delayOf .. | .applyConfig .. | .pushConfig | .kick | .enqueue .. | .dequeue
  | .irqDispatch | .serviceTx | .serviceRx | .reservedF => true

/-- See the head of this file. -/
def Instr.wellFormed : Instr → Bool
  | .writeConfig markFenN shdn _ rm pm ram ir _ _ _ _ =>
    markFenN == 0b110 && shdn == 0 && rm == 1 && pm == 0 && ram == 0 && ir == 0
  | .readConfig x => x == 0x4000
  | .writeData markZ _ _ _ _ => markZ == 0b10000
  | .readData x => x == 0x0000
  | .reserved0 => false
  | .encConfig _ _ _ par => legalPar par
  | .encData _ par => legalPar par
  | .decodeStatus _ => true
  | .baudIndex _ => true
  | .parityBit _ par => legalPar par
  | .delayOf _ => true
  | .applyConfig _ _ _ par => legalPar par
  | .pushConfig => true
  | .kick => true
  | .enqueue _ => true
  | .dequeue => true
  | .irqDispatch => true
  | .serviceTx => true
  | .serviceRx => true
  | .reservedF => false

end Sys2Proof
end

