-- ==== Sys2Proof/Decode.lean ====
section
/-! DEFINITION. Decoding of wire words (R83) and of request records (R70 to R73), total on any bytes and rejecting by name, and
after it the encoder. A wire word is two bytes, the high one first (R54). The bits of a request record are the model's own
(DESIGN CHOICE, log 12): op in bits 3 to 0, d7 4, st2 5, par 7 to 6, byte 15 to 8, word 31 to 16, baud 63 to 32, the byte
with the lowest bits first. -/

namespace Sys2Proof

open Sys2Proof.Machine (hiByte loByte joinBytes WordClass wordClass defaultParams)

/-- The two encodings of the opcode table: a wire word and a request record (30_encoding.md). -/
inductive Format where
  | wire16
  | request
  deriving DecidableEq, Repr

/-- Why bytes hold no instruction. Every word and every record decodes (R71, R83), so too few bytes is the only reason. -/
inductive DecodeError where
  /-- Fewer than the two bytes of a wire word (R45, R46). -/
  | shortWireWord
  /-- Fewer than the eight bytes of a request record (log 12). -/
  | shortRequest
  deriving DecidableEq, Repr

/-- A wire word by its class (R83), every bit of it kept at the place of the table's row (R74 to R77). -/
def decodeWire (p : Params) (w : Word) : Instr :=
  match wordClass p w with
  | .writeConfig =>
    .writeConfig (w.extractLsb' 13 3) (w.extractLsb' 12 1) (w.extractLsb' 11 1) (w.extractLsb' 10 1)
      (w.extractLsb' 9 1) (w.extractLsb' 8 1) (w.extractLsb' 7 1) (w.extractLsb' 6 1)
      (w.extractLsb' 5 1) (w.extractLsb' 4 1) (w.extractLsb' 0 4)
  | .readConfig => .readConfig w
  | .writeData =>
    .writeData (w.extractLsb' 11 5) (w.extractLsb' 10 1) (w.extractLsb' 9 1) (w.extractLsb' 8 1)
      (w.extractLsb' 0 8)
  | .readData => .readData w

/-- The operation code selects the operation, and the operands it does not read are dropped (R71, R72). -/
def decodeRequest (r : Request) : Instr :=
  if r.op = 0x0 then .reserved0
  else if r.op = 0x1 then .encConfig r.baud r.d7 r.st2 r.par
  else if r.op = 0x2 then .encData r.byte r.par
  else if r.op = 0x3 then .decodeStatus r.word
  else if r.op = 0x4 then .baudIndex r.baud
  else if r.op = 0x5 then .parityBit r.byte r.par
  else if r.op = 0x6 then .delayOf r.baud
  else if r.op = 0x7 then .applyConfig r.baud r.d7 r.st2 r.par
  else if r.op = 0x8 then .pushConfig
  else if r.op = 0x9 then .kick
  else if r.op = 0xA then .enqueue r.byte
  else if r.op = 0xB then .dequeue
  else if r.op = 0xC then .irqDispatch
  else if r.op = 0xD then .serviceTx
  else if r.op = 0xE then .serviceRx
  else .reservedF

/-- The record of 64 bits (log 12). -/
def requestOfBits (v : BitVec 64) : Request where
  op := v.extractLsb' 0 4
  d7 := v.extractLsb' 4 1
  st2 := v.extractLsb' 5 1
  par := v.extractLsb' 6 2
  byte := v.extractLsb' 8 8
  word := v.extractLsb' 16 16
  baud := v.extractLsb' 32 32

/-- The 64 bits of a record (log 12). -/
def requestBits (r : Request) : BitVec 64 :=
  r.baud ++ r.word ++ r.byte ++ r.par ++ r.st2 ++ r.d7 ++ r.op

/-- The eight bytes of a record, lowest bits first (log 12). -/
def recordBytes (v : BitVec 64) : List Byte :=
  [v.extractLsb' 0 8, v.extractLsb' 8 8, v.extractLsb' 16 8, v.extractLsb' 24 8,
   v.extractLsb' 32 8, v.extractLsb' 40 8, v.extractLsb' 48 8, v.extractLsb' 56 8]

/-- One instruction from the front of the bytes, with the bytes after it. -/
def decodeBytes (p : Params) : Format → List Byte → Except DecodeError (Instr × List Byte)
  | .wire16, h :: l :: rest => .ok (decodeWire p (joinBytes h l), rest)
  | .wire16, _ => .error .shortWireWord
  | .request, b0 :: b1 :: b2 :: b3 :: b4 :: b5 :: b6 :: b7 :: rest =>
    .ok (decodeRequest (requestOfBits (b7 ++ b6 ++ b5 ++ b4 ++ b3 ++ b2 ++ b1 ++ b0)), rest)
  | .request, _ => .error .shortRequest

/-- Which encoding an instruction has: the column "format" of spec/opcode_table.json. -/
def formatOf : Instr → Format
  | .writeConfig .. | .readConfig .. | .writeData .. | .readData .. => .wire16
  | .reserved0 | .encConfig .. | .encData .. | .decodeStatus .. | .baudIndex .. | .parityBit ..
  | .delayOf .. | .applyConfig .. | .pushConfig | .kick | .enqueue .. | .dequeue
  | .irqDispatch | .serviceTx | .serviceRx | .reservedF => .request

/-- The operation code of a request (R71); 0x0 for a wire word, which has none. -/
def opCode : Instr → BitVec 4
  | .writeConfig .. | .readConfig .. | .writeData .. | .readData .. => 0x0
  | .reserved0 => 0x0
  | .encConfig .. => 0x1
  | .encData .. => 0x2
  | .decodeStatus .. => 0x3
  | .baudIndex .. => 0x4
  | .parityBit .. => 0x5
  | .delayOf .. => 0x6
  | .applyConfig .. => 0x7
  | .pushConfig => 0x8
  | .kick => 0x9
  | .enqueue .. => 0xA
  | .dequeue => 0xB
  | .irqDispatch => 0xC
  | .serviceTx => 0xD
  | .serviceRx => 0xE
  | .reservedF => 0xF

/-- The wire word of the four wire classes (R74 to R77); 0x0000 for a request, which is no wire word. -/
def encodeWire : Instr → Word
  | .writeConfig markFenN shdn tm rm pm ram ir st pe l baud =>
    markFenN ++ shdn ++ tm ++ rm ++ pm ++ ram ++ ir ++ st ++ pe ++ l ++ baud
  | .readConfig x => x
  | .writeData markZ teN rts pt d => markZ ++ teN ++ rts ++ pt ++ d
  | .readData x => x
  | .reserved0 | .encConfig .. | .encData .. | .decodeStatus .. | .baudIndex .. | .parityBit ..
  | .delayOf .. | .applyConfig .. | .pushConfig | .kick | .enqueue .. | .dequeue
  | .irqDispatch | .serviceTx | .serviceRx | .reservedF => 0

/-- The class of a wire word's row (R74 to R77); a request has none. -/
def classOf : Instr → Option WordClass
  | .writeConfig .. => some .writeConfig
  | .readConfig .. => some .readConfig
  | .writeData .. => some .writeData
  | .readData .. => some .readData
  | .reserved0 | .encConfig .. | .encData .. | .decodeStatus .. | .baudIndex .. | .parityBit ..
  | .delayOf .. | .applyConfig .. | .pushConfig | .kick | .enqueue .. | .dequeue
  | .irqDispatch | .serviceTx | .serviceRx | .reservedF => none

/-- A wire word is one of the layout if its word is of the class of its row there; every request is. -/
def fitsLayout (p : Params) (i : Instr) : Prop :=
  ∀ c, classOf i = some c → wordClass p (encodeWire i) = c

/-- A record with the code `op` and every operand 0 (R92: an omitted operand is 0). -/
def bareRequest (op : BitVec 4) : Request :=
  { op := op, d7 := 0, st2 := 0, par := 0, byte := 0, word := 0, baud := 0 }

/-- The request record of an instruction, the operands it does not read 0 (R72, R92). -/
def encodeRequest (i : Instr) : Request :=
  match i with
  | .encConfig baud d7 st2 par | .applyConfig baud d7 st2 par =>
    { bareRequest (opCode i) with baud := baud, d7 := d7, st2 := st2, par := par }
  | .encData byte par | .parityBit byte par =>
    { bareRequest (opCode i) with byte := byte, par := par }
  | .decodeStatus word => { bareRequest (opCode i) with word := word }
  | .baudIndex baud | .delayOf baud => { bareRequest (opCode i) with baud := baud }
  | .enqueue byte => { bareRequest (opCode i) with byte := byte }
  | .writeConfig .. | .readConfig .. | .writeData .. | .readData ..
  | .reserved0 | .pushConfig | .kick | .dequeue | .irqDispatch | .serviceTx | .serviceRx
  | .reservedF => bareRequest (opCode i)

/-- The bytes of an instruction. -/
def encode (i : Instr) : List Byte :=
  match formatOf i with
  | .wire16 => [hiByte (encodeWire i), loByte (encodeWire i)]
  | .request => recordBytes (requestBits (encodeRequest i))

/-- The instruction the decoder reads from the bits `w` of one row of spec/opcode_table.json: a row of 16 bits is a wire word,
a row of one byte (the 4-bit code in its low half) the first byte of a request record whose other bytes are 0, and 64
bits a whole record. The table is the one of R6's default layout. -/
def decodeTableWord (nbits w : Nat) : Option Instr :=
  let read (f : Format) (bytes : List Byte) : Option Instr :=
    match decodeBytes defaultParams f bytes with
    | .ok (i, _) => some i
    | .error _ => none
  if nbits = 16 then
    read .wire16 [hiByte (BitVec.ofNat 16 w), loByte (BitVec.ofNat 16 w)]
  else if nbits ≤ 8 ∨ nbits = 64 then
    read .request (recordBytes (BitVec.ofNat 64 (w % 2 ^ nbits)))
  else none

/-- The names R93 gives to wire words in a trace; a word of another value has none. -/
inductive TraceName where
  | wcfg (w : Word)
  | rcfg
  | wdata (w : Word)
  | rxen
  | probe
  deriving DecidableEq, Repr

/-- R93, RXEN before the WDATA class it lies in; the three fixed words and the marks of the classes are R6's parameters. -/
def traceName (p : Params) (w : Word) : Option TraceName :=
  if w = p.rxenWord then some .rxen
  else if w = p.rcfgWord then some .rcfg
  else if w = p.probeWord then some .probe
  else
    match wordClass p w with
    | .writeConfig => some (.wcfg w)
    | .writeData => some (.wdata w)
    | .readConfig | .readData => none

end Sys2Proof
end

