-- ==== Sys2Proof/Machine/Wire.lean ====
section
/-! DEFINITION. The four wire-word classes as instructions (R74 to R77): one exchange of the word (R53), with the register write
that goes with the class in every micro-step that sends it. The micro-steps use the same operations. DESIGN CHOICE (log 13). -/

namespace Sys2Proof.Machine

/-- WRITE_CONFIG: `cur_cfg` is written, then the word is exchanged and its response discarded (R35 I4, R81, D11). -/
def execWriteConfig (markFenN : BitVec 3) (shdn tm rm pm ram ir st pe l : BitVec 1) (baud : BitVec 4) (s : State) :
    Host.Outcome State Fault Refusal :=
  .next (sendConfig (encodeWire (.writeConfig markFenN shdn tm rm pm ram ir st pe l baud)) s)

/-- READ_CONFIG: the word is exchanged, the response goes to `t_resp` (R75, R80, R121). -/
def execReadConfig (x : Word) (s : State) : Host.Outcome State Fault Refusal :=
  .next (sendAndKeep (encodeWire (.readConfig x)) s)

/-- WRITE_DATA: the word is exchanged, the response discarded (R76, R81). -/
def execWriteData (markZ : BitVec 5) (teN rts pt : BitVec 1) (d : Byte) (s : State) :
    Host.Outcome State Fault Refusal :=
  .next (sendData (encodeWire (.writeData markZ teN rts pt d)) s)

/-- READ_DATA: the word is exchanged, the response goes to `t_resp` (R77, R133). -/
def execReadData (x : Word) (s : State) : Host.Outcome State Fault Refusal :=
  .next (sendAndKeep (encodeWire (.readData x)) s)

end Sys2Proof.Machine
end

