-- ==== Sys2Proof/Machine/Dispatch.lean ====
section
/-! DEFINITION. One arm per instruction. -/

namespace Sys2Proof.Machine

def exec (i : Instr) (s : State) : Host.Outcome State Fault Refusal :=
  match i with
  | .writeConfig markFenN shdn tm rm pm ram ir st pe l baud => Sys2Proof.Machine.execWriteConfig markFenN shdn tm rm pm ram ir st pe l baud s
  | .readConfig x => Sys2Proof.Machine.execReadConfig x s
  | .writeData markZ teN rts pt d => Sys2Proof.Machine.execWriteData markZ teN rts pt d s
  | .readData x => Sys2Proof.Machine.execReadData x s
  | .reserved0 => Sys2Proof.Machine.execReserved0 s
  | .encConfig baud d7 st2 par => Sys2Proof.Machine.execEncConfig baud d7 st2 par s
  | .encData byte par => Sys2Proof.Machine.execEncData byte par s
  | .decodeStatus word => Sys2Proof.Machine.execDecodeStatus word s
  | .baudIndex baud => Sys2Proof.Machine.execBaudIndex baud s
  | .parityBit byte par => Sys2Proof.Machine.execParityBit byte par s
  | .delayOf baud => Sys2Proof.Machine.execDelayOf baud s
  | .applyConfig baud d7 st2 par => Sys2Proof.Machine.execApplyConfig baud d7 st2 par s
  | .pushConfig => Sys2Proof.Machine.execPushConfig s
  | .kick => Sys2Proof.Machine.execKick s
  | .enqueue byte => Sys2Proof.Machine.execEnqueue byte s
  | .dequeue => Sys2Proof.Machine.execDequeue s
  | .irqDispatch => Sys2Proof.Machine.execIrqDispatch s
  | .serviceTx => Sys2Proof.Machine.execServiceTx s
  | .serviceRx => Sys2Proof.Machine.execServiceRx s
  | .reservedF => Sys2Proof.Machine.execReservedF s

end Sys2Proof.Machine
end

