-- ==== Sys2Proof/Machine/Arbiter.lean ====
section
/-! DEFINITION. Who moves, and what each agent's move does (R5): arbitration at IDLE (R23), the request port (R88), the Host
(R141 to R145), the time base (R32), the reset event (R169), a word put on the transfer port, and placing an instruction
where the next step runs it. -/

namespace Sys2Proof.Machine

/-! ### The schedule -/

/-- A move drawn freely; where the IRQ source is quiet, a drawn edge is no move (R184). -/
def drawnMove (env : Env) : Move :=
  match env.quiet, Config.freeMove env.draws with
  | true, .irqSource => .timeBase 0
  | _, m => m

/-- The next move: the schedule's first, else a free value. DESIGN CHOICE (log 3). -/
def nextMove (env : Env) : Move :=
  match env.schedule with
  | m :: _ => m
  | [] => drawnMove env

/-- A move is made once. -/
def spendMove (env : Env) : Env :=
  match env.schedule with
  | _ :: rest => { env with schedule := rest }
  | [] => { env with draws := env.draws + 1 }

/-! ### The Sequencer -/

/-- What the arbiter starts at IDLE (R23). -/
inductive Start where
  | nothing
  | dispatch
  | request (r : Request)
  deriving DecidableEq, Repr

/-- With both pending the move's choice decides; with one, that one starts; with none, nothing (R23, R159). -/
def chooseStart (pick : Pick) (irq : Bool) (req : Option Request) : Start :=
  match irq, req, pick with
  | false, none, _ => .nothing
  | true, none, _ => .dispatch
  | false, some r, _ => .request r
  | true, some _, .irq => .dispatch
  | true, some r, .request => .request r

/-- The codes the request port refuses although an operation has them (R71, R88). -/
def otherPort : Instr → Bool
  | .enqueue .. | .dequeue | .irqDispatch | .serviceTx | .serviceRx => true
  | .writeConfig .. | .readConfig .. | .writeData .. | .readData .. => false
  | .reserved0 | .reservedF => false
  | .encConfig .. | .encData .. | .decodeStatus .. | .baudIndex .. | .parityBit .. | .delayOf .. => false
  | .applyConfig .. | .pushConfig | .kick => false

/-- A request on the request port runs its operation, or is refused (R71, R88). -/
def runRequest (r : Request) (s : State) : Host.Outcome State Fault Refusal :=
  if otherPort (decodeRequest r) then
    .next (refusedRequest r.op .noOperands (.refusedOp r.op) s)
  else exec (decodeRequest r) s

/-- The Sequencer's move: the next micro-step of the operation in progress, or what the arbiter starts (R22, R23, R58). The request
leaves the port when it starts (R21). -/
def sequencerMove (pick : Pick) (s : State) : Host.Outcome State Fault Refusal :=
  match phaseOp s.phase with
  | some i => exec i s
  | none =>
    match chooseStart pick s.irqPending s.hostReq with
    | .nothing => .next s
    | .dispatch => exec .irqDispatch s
    | .request r => runRequest r { s with hostReq := none }

/-! ### The time base and the reset event -/

/-- Time passes by `ticks` ticks of 1/TICK_HZ second; only STX_WAIT counts it, whole microseconds in `wait_elapsed` and the rest in
`tickRest` (R25, R32, R161). Log 18. -/
def timePasses (ticks : Nat) (s : State) : State :=
  match s.phase, s.waitElapsed with
  | .stxWait, .val n =>
    { s with
      waitElapsed := .val (n + (s.tickRest + ticks * 1000000) / s.params.tickHz)
      tickRest := (s.tickRest + ticks * 1000000) % s.params.tickHz }
  | _, _ => s

/-- The reset event: every piece of the block's state to its reset value, whatever was in progress (R36, R148, R169). The
parameters and the agents around the block stay as they are, but the Host drops the macro it had begun, so that none of its
requests and ENQUEUEs goes on across the reset (R148). Log 20. -/
def resetEvent (s : State) : State :=
  { State.reset with params := s.params, env := s.env, host := { s.host with current := [] } }

/-! ### The Host -/

/-- Whether the Host has a request outstanding: issued, or running (R141). -/
def hostWaits (s : State) : Bool := s.hostReq.isSome || (hostOp s.phase).isSome

/-- Replace what is left of the Host's script. -/
def setScript (cmds : List HostCmd) (s : State) : State :=
  { s with host := { s.host with script := cmds } }

/-- What is to be done before anything else of the script. -/
def doFirst (cmds : List HostCmd) (s : State) : State :=
  { s with host := { s.host with current := cmds ++ s.host.current } }

/-- The next command, of the macro begun or else of the script, and the Host with it taken off. -/
def nextCmd (a : HostAgent) : Option (HostCmd × HostAgent) :=
  match a.current, a.script with
  | c :: cs, _ => some (c, { a with current := cs })
  | [], c :: cs => some (c, { a with script := cs })
  | [], [] => none

/-- Put a request on the request port (R21, R30). -/
def issue (r : Request) (s : State) : State := { s with hostReq := some r }

/-- Tell the Host's caller (R143 to R145). -/
def reply (a : HostReply) (s : State) : State :=
  { s with host := { s.host with replies := s.host.replies ++ [a] } }

/-- Set or clear the Open-Session Marker (R144). -/
def setSession (b : Bool) (s : State) : State := { s with host := { s.host with session := b } }

/-- The rest of a WRITE after one ENQUEUE: FULL means KICK and retry, OK means the next byte (R142). -/
def afterWriteEnqueue (b : Byte) (bs : List Byte) (t : State) : State :=
  match t.qAnswer with
  | some .full => doFirst [.request (encodeRequest .kick), .write (b :: bs)] t
  | _ => doFirst [.write bs] t

/-- The Transfer Resource gets one more answer to give, after those it has (R92). -/
def addAnswer (a : Answer) (s : State) : State :=
  { s with env := { s.env with answers := s.env.answers ++ [a] } }

/-- Whether the Line Sink keeps the NEXT delivered byte is set, whatever was set for it before (R92). -/
def setNextDraw (keep : Bool) (s : State) : State :=
  { s with env := { s.env with sinkDraws := keep :: s.env.sinkDraws.tail } }

/-- One command of the Host's script. -/
def runCmd (c : HostCmd) (s : State) : Host.Outcome State Fault Refusal :=
  match c with
  | .request r => .next (issue r s)
  | .enqueue b => exec (.enqueue b) s
  | .lineCfg baud d7 st2 par =>
    .next (issue (encodeRequest (.applyConfig baud d7 st2 par))
      (doFirst [.request (encodeRequest .pushConfig), .lineReport] s))
  | .lineReport => .next (reply (.lineResult s.result) s)
  | .write [] => .next (issue (encodeRequest .kick) s)
  | .write (b :: bs) =>
    match exec (.enqueue b) s with
    | .next t => .next (afterWriteEnqueue b bs t)
    | .fault f => .fault f
    | .refused r => .refused r
  | .openSession =>
    if s.host.session then .next (reply .deviceBusy s)
    else .next (reply .sessionOpened (setSession true s))
  | .closeSession => .next (reply .sessionClosed (setSession false s))
  | .writeRoom => .next (reply .unbounded s)
  | .edge => .next (irqEdge s)
  | .answer a => .next (addAnswer a s)
  | .sink keep => .next (setNextDraw keep s)

/-- The Host's move: the next command of its script, but nothing while a request of its own is outstanding (R141). Log 19. -/
def hostMove (s : State) : Host.Outcome State Fault Refusal :=
  match nextCmd s.host with
  | none => .next s
  | some (c, a) => if hostWaits s then .next s else runCmd c { s with host := a }

/-! ### One step -/

/-- What one move does. -/
def runMove (m : Move) (s : State) : Host.Outcome State Fault Refusal :=
  match m with
  | .sequencer pick => sequencerMove pick s
  | .host => hostMove s
  | .irqSource => .next (irqEdge s)
  | .timeBase us => .next (timePasses us s)
  | .reset => .next (resetEvent s)

/-- The state with the next move taken off the schedule. -/
def takeMove (s : State) : State := { s with env := spendMove s.env }

/-- A step: a word on the transfer port is exchanged first; otherwise one agent moves (R48, R61). -/
def stepOnce (s : State) : Host.Outcome State Fault Refusal :=
  match s.portOut with
  | some w => exec (decodeWire s.params w) { s with portOut := none }
  | none => runMove (nextMove s.env) (takeMove s)

/-! ### Placing an instruction where the next step runs it (log 21) -/

/-- Put a move at the head of the schedule, with nothing on the transfer port. -/
def scheduleFirst (m : Move) (s : State) : State :=
  { s with portOut := none, env := { s.env with schedule := m :: s.env.schedule } }

/-- A state in which the next step runs `i`: a wire word on the transfer port; a request in `host_req` at IDLE; an ENQUEUE at the
head of what the Host does; an edge pending; or the phase of an internal operation. -/
def placeInstr (i : Instr) (wire : Word) (r : Request) (s : State) : State :=
  match i with
  | .writeConfig .. | .readConfig .. | .writeData .. | .readData .. => { s with portOut := some wire }
  | .enqueue b =>
    scheduleFirst .host
      (doFirst [.enqueue b] { s with phase := .idle, hostReq := none })
  | .dequeue => scheduleFirst (.sequencer .irq) (setPhase .kickDeq s)
  | .irqDispatch =>
    scheduleFirst (.sequencer .irq) { s with phase := .idle, irqPending := true }
  | .serviceTx => scheduleFirst (.sequencer .irq) (setPhase .stxDeq s)
  | .serviceRx =>
    scheduleFirst (.sequencer .irq)
      { s with
        phase := .dispRx
        tResp := match s.tResp with
          | .val v => .val v
          | .unw => .val 0x8000 }
  | .reserved0 | .encConfig .. | .encData .. | .decodeStatus .. | .baudIndex .. | .parityBit ..
  | .delayOf .. | .applyConfig .. | .pushConfig | .kick | .reservedF =>
    scheduleFirst (.sequencer .request) { s with phase := .idle, hostReq := some r }

/-- `placeInstr` for the bits of a row of spec/opcode_table.json; bits that decode to nothing place nothing. -/
def placeTableWord (s : State) (nbits w : Nat) : State :=
  match decodeTableWord nbits w with
  | some i =>
    placeInstr i (BitVec.ofNat 16 w) (requestOfBits (BitVec.ofNat 64 (w % 2 ^ nbits))) s
  | none => s

end Sys2Proof.Machine
end

