-- ==== Sys2Proof/Machine/Script.lean ====
section
/-! DEFINITION. The lines of a request script (R92) as data, and the command each puts into the Host's script. Their text stands in Machine/ScriptText.lean. Log 23. -/

namespace Sys2Proof.Machine

/-- The lines of R92 and the macros of R94. -/
inductive ScriptLine where
  | encConfig (baud : BitVec 32) (d7 st2 : BitVec 1) (m : ParMode)
  | encData (b : Byte) (m : ParMode)
  | decodeStatus (w : Word)
  | baudIndex (baud : BitVec 32)
  | parityBit (b : Byte) (m : ParMode)
  | delayOf (baud : BitVec 32)
  | apply (baud : BitVec 32) (d7 st2 : BitVec 1) (m : ParMode)
  | push
  | kick
  | enq (b : Byte)
  | req (r : Request)
  | lineCfg (baud : BitVec 32) (d7 st2 : BitVec 1) (m : ParMode)
  | write (bs : List Byte)
  | irq
  | answerOk (v : Word)
  | answerErr
  | sinkAccept
  | sinkDrop
  deriving DecidableEq, Repr

/-- The parity code of a mode (R73). -/
def parCode : ParMode → BitVec 2
  | .none => 0
  | .even => 1
  | .odd => 2

/-- The command of a line (R92, R94). -/
def hostCmdOf : ScriptLine → HostCmd
  | .encConfig baud d7 st2 m => .request (encodeRequest (.encConfig baud d7 st2 (parCode m)))
  | .encData b m => .request (encodeRequest (.encData b (parCode m)))
  | .decodeStatus w => .request (encodeRequest (.decodeStatus w))
  | .baudIndex baud => .request (encodeRequest (.baudIndex baud))
  | .parityBit b m => .request (encodeRequest (.parityBit b (parCode m)))
  | .delayOf baud => .request (encodeRequest (.delayOf baud))
  | .apply baud d7 st2 m => .request (encodeRequest (.applyConfig baud d7 st2 (parCode m)))
  | .push => .request (encodeRequest .pushConfig)
  | .kick => .request (encodeRequest .kick)
  | .enq b => .enqueue b
  | .req r => .request r
  | .lineCfg baud d7 st2 m => .lineCfg baud d7 st2 (parCode m)
  | .write bs => .write bs
  | .irq => .edge
  | .answerOk v => .answer (answerOk v)
  | .answerErr => .answer .err
  | .sinkAccept => .sink true
  | .sinkDrop => .sink false

/-- Read a script: its lines, in order, follow what the Host's script holds. -/
def readScript (lines : List ScriptLine) (s : State) : State :=
  setScript (s.host.script ++ lines.map hostCmdOf) s

end Sys2Proof.Machine
end

