-- ==== Sys2Proof/Safety.lean ====
section
/-! DEFINITION. The terms claims are stated in: what a request leaves, what the history says, the words the block may send, the
invariants of R35, the launch and the end of a run. -/

namespace Sys2Proof.Machine

/-! ### What one request or one exchange leaves -/

/-- The state after a request that took one step from IDLE and ended with `r`: `result` and two events (R26, R28), and the
temporaries UNW (R24), as they are at IDLE in every run (`PhaseInv`). -/
def afterRequest (op : BitVec 4) (ops : Operands) (r : Result) (s : State) : State :=
  { s with
    result := some r, tResp := .unw, tByte := .unw
    history := s.history ++ [.req op ops, .done op r] }

/-- The result OK with a 16-bit data value (R26). -/
def okWord (w : Word) : Result := { code := .ok, data := .word w }

/-- The state after a refused request: `result`, one fault entry and three events, nothing else (R88, R90, R155). -/
def afterRefusal (op : BitVec 4) (ops : Operands) (kind : FaultKind) (s : State) : State :=
  { s with
    result := some (plain .refused)
    faults := insertFault ⟨kind, .idle, op⟩ s.faults
    history := s.history ++ [.req op ops, .fault kind, .done op (plain .refused)] }

/-- The event of exchanging `w` with whatever answer comes next (R53). -/
def xferEvent (w : Word) (env : Env) : Event := .xfer w (outcomeOf (answerFor w env))

/-! ### What a history says -/

/-- The bytes whose ENQUEUE answered OK, in order (R113). -/
def enqueuedBytes (h : List Event) : List Byte :=
  h.filterMap fun
    | .enq b .ok => some b
    | _ => none

/-- The bytes DEQUEUE returned, in order (R113). -/
def dequeuedBytes (h : List Event) : List Byte :=
  h.filterMap fun
    | .deq (some b) => some b
    | _ => none

/-- The WRITE_CONFIG word sent last, UNW if none was (R35 I4, R174). -/
def lastConfigSent (p : Params) (h : List Event) : Reg Word :=
  h.foldl
    (fun last e =>
      match e with
      | .xfer w _ => if wordClass p w = .writeConfig then .val w else last
      | _ => last)
    .unw

/-- The external events a micro-step has at most one of: an exchange, a dequeue, a delivery, the end of a wait (42_sequencer.md). -/
def Event.isExternal : Event → Bool
  | .xfer .. | .deliver .. | .waitEnd | .deq .. => true
  | .waitBegin .. | .enq .. | .irqEdge | .req .. | .done .. | .fault .. => false

/-- The events a step added. -/
def newEvents (s t : State) : List Event := t.history.drop s.history.length

/-! ### The words the block sends -/

/-- A configuration word of ENC_CONFIG (R82 a). -/
def IsConfigWord (p : Params) (w : Word) : Prop :=
  ∃ (baud : BitVec 32) (d7 st2 : BitVec 1) (m : ParMode), w = configWord p baud d7 st2 m

/-- A configuration word with TM set (R82 a). -/
def IsArmedWord (p : Params) (w : Word) : Prop := ∃ c, IsConfigWord p c ∧ w = withTm p c

/-- R82: the words the block emits. -/
def Emittable (p : Params) (w : Word) : Prop :=
  IsConfigWord p w ∨ IsArmedWord p w ∨ w = p.rcfgWord ∨ (∃ b m, w = dataWord p b m)
    ∨ w = p.rxenWord ∨ w = p.probeWord

/-- The marks tell the words the block sends apart: no field of a configuration or data word reaches into the mark bits, the fixed
words have the marks of their classes, and no two of them are the same (R6, R74 to R78, G2). -/
def MarksApart (p : Params) : Prop :=
  p.wcfgMark ≠ p.wdataMark ∧ p.rcfgWord ≠ p.probeWord
    ∧ markMask p &&& (p.tmMask ||| p.rmMask ||| p.stMask ||| p.peMask ||| p.lMask
        ||| (0x000F : Word) <<< (p.baudLo : Nat) ||| p.rtsMask ||| p.ptMask ||| 0x00FF) = 0
    ∧ p.rxenWord &&& markMask p = p.wdataMark
    ∧ p.rcfgWord &&& markMask p ≠ p.wcfgMark ∧ p.rcfgWord &&& markMask p ≠ p.wdataMark
    ∧ p.probeWord &&& markMask p ≠ p.wcfgMark ∧ p.probeWord &&& markMask p ≠ p.wdataMark

/-- The layout and the numbers of R6's defaults, whatever the capacity, DATA_RTS, the tick rate and the bit order are. -/
def DefaultLayout (p : Params) : Prop :=
  p = { defaultParams with
    qcap := p.qcap, dataRts := p.dataRts, tickHz := p.tickHz, spiBitOrder := p.spiBitOrder }

/-! ### Invariants (R35) -/

/-- Whether a register has been written. -/
def Reg.isVal {α : Type} : Reg α → Bool
  | .val _ => true
  | .unw => false

/-- R35 I1, R114. -/
def CapacityInv (s : State) : Prop := s.txq.length ≤ (s.params.qcap : Nat)

/-- R113: what was enqueued is what was dequeued and then what is still queued. -/
def FifoInv (s : State) : Prop :=
  enqueuedBytes s.history = dequeuedBytes s.history ++ s.txq

/-- R35 I2 to I4 and R82, between micro-steps: the configuration registers hold configuration words, `cur_cfg` is the word
sent last, and every word sent is one the block emits. -/
def ConfigInv (s : State) : Prop :=
  DefaultLayout s.params ∧ s.portOut = none
    ∧ (∀ w, s.pendingCfg = .val w → IsConfigWord s.params w)
    ∧ (∀ w, s.curCfg = .val w → IsConfigWord s.params w ∨ IsArmedWord s.params w)
    ∧ lastConfigSent s.params s.history = s.curCfg
    ∧ ∀ w r, Event.xfer w r ∈ s.history → Emittable s.params w

/-- The registers APPLY_CONFIG writes are written together, and PUSH_CONFIG comes after it (R120, R121, R170). -/
def WrittenTogether (s : State) : Prop :=
  s.delayUs.isVal = s.pendingCfg.isVal ∧ s.parEn.isVal = s.pendingCfg.isVal
    ∧ s.parOdd.isVal = s.pendingCfg.isVal ∧ (s.curCfg.isVal → s.pendingCfg.isVal)

/-- What each phase may rely on (R22, R24, R25): the temporaries and the `cur_cfg` that an earlier micro-step of the operation wrote,
and at IDLE the temporaries UNW. STX_CLR may still find `delay_us` and `cur_cfg` UNW, and STX_WDATA the parity flags (R126, R170):
no earlier micro-step wrote them. The three start phases are never rested in (log 7). -/
def PhaseInv (s : State) : Prop :=
  s.portOut = none ∧ DefaultLayout s.params ∧ WrittenTogether s
    ∧ (∀ d, s.delayUs = .val d → 43 ≤ d.toNat ∧ d.toNat ≤ 16666)
    ∧ (s.waitElapsed.isVal ↔ s.phase = .stxWait)
    ∧ s.tickRest < (s.params.tickHz : Nat)
    ∧ match s.phase with
      | .idle => s.tResp = .unw ∧ s.tByte = .unw
      | .stxDeq | .stxClr => s.tResp.isVal
      | .pushWcfg | .kickTest | .dispProbe => False
      | .pushRcfg => s.curCfg.isVal ∧ s.curCfg = s.pendingCfg
      | .pushRxen => s.curCfg.isVal ∧ s.curCfg = s.pendingCfg ∧ s.tResp.isVal
      | .kickDeq => s.curCfg.isVal ∧ s.tResp.isVal
      | .kickWdata => s.curCfg.isVal ∧ s.tResp.isVal ∧ s.tByte.isVal
      | .dispRx => s.tResp.isVal
      | .stxWdata => s.tResp.isVal ∧ s.tByte.isVal
      | .stxWait | .stxRxen => s.curCfg.isVal ∧ s.tResp.isVal

/-! ### Launch and end (R183, R184) -/

/-- A launch record: what R183 requires of it. -/
def Launch (s : State) : Prop :=
  s.phase = .idle ∧ s.irqPending = false ∧ s.hostReq = none ∧ s.faults = [] ∧ s.history = []

/-- Whether a command of the Host's script puts a request or an ENQUEUE to the block (R184). -/
def HostCmd.callsBlock : HostCmd → Bool
  | .request _ | .enqueue _ | .lineCfg .. | .write _ => true
  | .lineReport | .openSession | .closeSession | .writeRoom | .edge | .answer _ | .sink _ => false

/-- R184, the environment's side: no edge in the schedule or the script, and the IRQ source makes no other. -/
def NoEdgeLeft (s : State) : Prop :=
  s.env.quiet = true ∧ Move.irqSource ∉ s.env.schedule
    ∧ HostCmd.edge ∉ s.host.current ∧ HostCmd.edge ∉ s.host.script

/-- R184: the run has ended. -/
def Ended (s : State) : Prop :=
  s.phase = .idle ∧ s.irqPending = false ∧ s.hostReq = none
    ∧ (∀ c ∈ s.host.current ++ s.host.script, c.callsBlock = false) ∧ NoEdgeLeft s

end Sys2Proof.Machine
end

