-- ==== Sys2Proof/Certificates/Slice0/Obligations.lean ====
section
/-! DEFINITION. The statements for the provers. A conclusion of the form `exec i s = .next { s with … }` gives the whole next state:
every field it does not name is unchanged (the frame), and the instruction completes under the hypotheses. A response is
`responseOf (answerFor w s.env)`, the answer the Transfer Resource gives next, whatever it is (R57). -/

open Sys2Proof Sys2Proof.Machine

/-! ### Encoding -/

/-- Decoding the bytes of an instruction gives it back, with the bytes after it (R70 to R77, R83; the record's layout is log 12): every
request, and every wire word that has its row's mark, by R6's defaults the bits 15 to 14 of the opcode table, in another layout
those of `wordClass` (log 10). -/
def Obligations.DecodeOfEncodeIsTheInstruction : Prop :=
  ∀ (p : Params) (i : Instr) (rest : List Byte),
    (DefaultLayout p ∧ i.tableMark = true ∨ fitsLayout p i) →
    decodeBytes p (formatOf i) (encode i ++ rest) = .ok (i, rest)

/-- R83: by R6's defaults bits 15 to 14 select the class, and every word decodes to exactly one. That a decoded word keeps all its
bits, in every layout, is the model's form of a wire word (log 10). -/
def Obligations.EveryWordDecodesToOneClass : Prop :=
  ∀ (p : Params) (w : Word), encodeWire (decodeWire p w) = w ∧
    (DefaultLayout p →
      match decodeWire p w with
      | .writeConfig .. => w.toNat / 2 ^ 14 = 3
      | .readConfig .. => w.toNat / 2 ^ 14 = 1
      | .writeData .. => w.toNat / 2 ^ 14 = 2
      | .readData .. => w.toNat / 2 ^ 14 = 0
      | _ => False)

/-- Words of the spec's own examples, read as the opcode table numbers them (R71, R74 to R78, 95_test_vectors.md). -/
def Obligations.ExampleWordsDecode : Prop :=
  decodeTableWord 16 0xC47B = some (.writeConfig 6 0 0 1 0 0 0 1 1 1 0xB) ∧
  decodeTableWord 16 0xCC0B = some (.writeConfig 6 0 1 1 0 0 0 0 0 0 0xB) ∧
  decodeTableWord 16 0x4000 = some (.readConfig 0x4000) ∧
  decodeTableWord 16 0x8341 = some (.writeData 0x10 0 1 1 0x41) ∧
  decodeTableWord 16 0x8500 = some (.writeData 0x10 1 0 1 0x00) ∧
  decodeTableWord 16 0x0000 = some (.readData 0x0000) ∧
  decodeTableWord 8 0x8 = some .pushConfig ∧
  decodeTableWord 8 0x9 = some .kick ∧
  decodeTableWord 8 0xC = some .irqDispatch

/-- R89 and R83 for the words of R82: by R6's defaults a word the block emits has 0 in every bit the spec gives no value; and in every
layout whose marks are apart it decodes to the class of its own rule (R74 to R78; that the marks carry the class is log 10). -/
def Obligations.EmittedWordsAreWellFormed : Prop :=
  ∀ (p : Params) (w : Word),
    (DefaultLayout p → Emittable p w → (decodeWire p w).wellFormed = true) ∧
    (MarksApart p →
      (IsConfigWord p w ∨ IsArmedWord p w → classOf (decodeWire p w) = some .writeConfig) ∧
      (w = p.rcfgWord → classOf (decodeWire p w) = some .readConfig) ∧
      ((∃ b m, w = dataWord p b m) ∨ w = p.rxenWord →
        classOf (decodeWire p w) = some .writeData) ∧
      (w = p.probeWord → classOf (decodeWire p w) = some .readData))

/-! ### The exchange and the wire words -/

/-- R53, R54, R56: an exchange is one event and spends one answer; Ok bytes are joined high byte first, Err reads as 0x0000. -/
def Obligations.ExchangeReturnsTheAnswer : Prop :=
  ∀ (w : Word) (s : State),
    (∀ h l, answerFor w s.env = .ok h l →
      xferResp w s = h ++ l ∧
      xfer w s = { s with env := spendAnswer s.env, history := s.history ++ [.xfer w (.ok (h ++ l))] }) ∧
    (answerFor w s.env = .err →
      xferResp w s = 0x0000 ∧
      xfer w s = { s with env := spendAnswer s.env, history := s.history ++ [.xfer w .err] })

/-- A prepared answer is the next one and is used once; with none prepared the answer is the free value (R49, R57). The register
writes are the model's choice for a wire word on its own (log 13). -/
def Obligations.WireWordsAreExchangedOnce : Prop :=
  ∀ s : State,
    (∀ markFenN shdn tm rm pm ram ir st pe l baud,
      exec (.writeConfig markFenN shdn tm rm pm ram ir st pe l baud) s =
        .next { s with
          curCfg := .val (encodeWire (.writeConfig markFenN shdn tm rm pm ram ir st pe l baud))
          env := spendAnswer s.env
          history := s.history ++
            [xferEvent (encodeWire (.writeConfig markFenN shdn tm rm pm ram ir st pe l baud)) s.env] }) ∧
    (∀ x, exec (.readConfig x) s =
      .next { s with
        tResp := .val (responseOf (answerFor (encodeWire (.readConfig x)) s.env))
        env := spendAnswer s.env
        history := s.history ++ [xferEvent (encodeWire (.readConfig x)) s.env] }) ∧
    (∀ markZ teN rts pt d, exec (.writeData markZ teN rts pt d) s =
      .next { s with
        env := spendAnswer s.env
        history := s.history ++ [xferEvent (encodeWire (.writeData markZ teN rts pt d)) s.env] }) ∧
    (∀ x, exec (.readData x) s =
      .next { s with
        tResp := .val (responseOf (answerFor (encodeWire (.readData x)) s.env))
        env := spendAnswer s.env
        history := s.history ++ [xferEvent (encodeWire (.readData x)) s.env] })

/-! ### The pure codec requests -/

/-- R95, R96, R100: the index that BAUD_TABLE has for `eff(baud)`, zero-extended, whatever the table is; by R6's defaults the ten
indices and 0xB for every rate outside S. Of a rate the table has no entry for, only that the operation ends OK (log 27). -/
def Obligations.BaudIndexGivesTheTableEntry : Prop :=
  ∀ (s : State) (baud : BitVec 32), s.phase = .idle →
    ∃ index : BitVec 4,
      exec (.baudIndex baud) s =
        .next (afterRequest 0x4 (.baud baud) (okWord (index.setWidth 16)) s) ∧
      (let eff := if baud.toNat ∈ [600, 1200, 2400, 4800, 9600, 19200, 38400, 57600, 115200, 230400]
        then baud.toNat else s.params.defaultBaud
      ∀ i, (eff, i) ∈ s.params.baudTable → (∀ j, (eff, j) ∈ s.params.baudTable → j = i) →
        index = i) ∧
      (DefaultLayout s.params → index =
        if baud = 230400 then 0x0 else if baud = 115200 then 0x1 else if baud = 57600 then 0x2
        else if baud = 38400 then 0x9 else if baud = 19200 then 0xA else if baud = 4800 then 0xC
        else if baud = 2400 then 0xD else if baud = 1200 then 0xE else if baud = 600 then 0xF
        else 0xB)

/-- R84, R101: the word, with the index BAUD_INDEX answers, the refusal of par = 3, and the corner cases (TM never set, even and odd alike, index 0xB outside S). -/
def Obligations.EncConfigAssemblesTheWord : Prop :=
  ∀ (s : State) (baud : BitVec 32) (d7 st2 : BitVec 1) (par : BitVec 2), s.phase = .idle →
    if par = 3 then
      exec (.encConfig baud d7 st2 par) s =
        .next (afterRefusal 0x1 (.line baud d7 st2 par) .refusedPar s)
    else
      ∃ (w : Word) (index : BitVec 4),
        exec (.encConfig baud d7 st2 par) s =
          .next (afterRequest 0x1 (.line baud d7 st2 par) (okWord w) s) ∧
        exec (.baudIndex baud) s =
          .next (afterRequest 0x4 (.baud baud) (okWord (index.setWidth 16)) s) ∧
        w = s.params.wcfgMark ||| s.params.rmMask ||| (if st2 = 1 then s.params.stMask else 0)
          ||| (if par = 0 then 0 else s.params.peMask) ||| (if d7 = 1 then s.params.lMask else 0)
          ||| index.setWidth 16 <<< (s.params.baudLo : Nat) ∧
        (DefaultLayout s.params → w &&& 0x0800 = 0 ∧
          (baud.toNat ∉ [600, 1200, 2400, 4800, 9600, 19200, 38400, 57600, 115200, 230400] →
            w &&& 0x000F = 0x000B))

/-- R98, R102: the word and the refusal of par = 3. All 8 bits of the byte are kept and counted (R109). -/
def Obligations.EncDataAssemblesTheWord : Prop :=
  ∀ (s : State) (byte : Byte) (par : BitVec 2), s.phase = .idle →
    exec (.encData byte par) s = .next
      (if par = 3 then afterRefusal 0x2 (.data byte par) .refusedPar s
      else afterRequest 0x2 (.data byte par) (okWord
        (s.params.wdataMark ||| (if s.params.dataRts then s.params.rtsMask else 0)
          ||| (if par = 1 ∧ popcount8 byte % 2 = 1 ∨ par = 2 ∧ popcount8 byte % 2 = 0
            then s.params.ptMask else 0)
          ||| byte.setWidth 16)) s)

/-- R79, R81, R103: the bits R_BIT and T_BIT and the field RXBYTE_FIELD; bit 15, bit 14 and bits 7 to 0 with R6's defaults. -/
def Obligations.DecodeStatusReportsTheFields : Prop :=
  ∀ (s : State) (word : Word), s.phase = .idle →
    exec (.decodeStatus word) s = .next (afterRequest 0x3 (.word word)
      { code := .ok
        data := .status (word.getLsbD s.params.rBit) (word.getLsbD s.params.tBit)
          (word.extractLsb' s.params.rxLo 8) } s) ∧
    (DefaultLayout s.params →
      exec (.decodeStatus word) s = .next (afterRequest 0x3 (.word word)
        { code := .ok, data := .status (word.getLsbD 15) (word.getLsbD 14) (word.setWidth 8) } s))

/-- R99, R104: the parity bit makes the number of set bits even or odd as asked, and is 0 with parity off. -/
def Obligations.ParityBitMeetsTheLaw : Prop :=
  ∀ (s : State) (byte : Byte) (par : BitVec 2), s.phase = .idle →
    if par = 3 then
      exec (.parityBit byte par) s = .next (afterRefusal 0x5 (.data byte par) .refusedPar s)
    else
      ∃ bit : Nat, bit ≤ 1 ∧
        exec (.parityBit byte par) s = .next (afterRequest 0x5 (.data byte par)
          (okWord (BitVec.ofNat 16 bit)) s) ∧
        (par = 0 → bit = 0) ∧
        (par = 1 → (popcount8 byte + bit) % 2 = 0) ∧
        (par = 2 → (popcount8 byte + bit) % 2 = 1)

/-- R95, R97, R105: DELAY_NUM by the effective rate, where 16 bits hold it; with R6's numbers they always do, and it is the quotient of
10000000 in its range. Where they do not, the operation still ends OK, and nothing is said of its value (log 26). -/
def Obligations.DelayOfDividesByTheEffectiveBaud : Prop :=
  ∀ (s : State) (baud : BitVec 32), s.phase = .idle →
    ∃ d : Word,
      exec (.delayOf baud) s = .next (afterRequest 0x6 (.baud baud) (okWord d) s) ∧
      (let delay := s.params.delayNum /
        (if baud.toNat ∈ [600, 1200, 2400, 4800, 9600, 19200, 38400, 57600, 115200, 230400]
          then baud.toNat else s.params.defaultBaud)
      delay < 2 ^ 16 → d.toNat = delay) ∧
      (DefaultLayout s.params →
        d.toNat = 10000000 /
          (if baud.toNat ∈ [600, 1200, 2400, 4800, 9600, 19200, 38400, 57600, 115200, 230400]
            then baud.toNat else 9600) ∧
        43 ≤ d.toNat ∧ d.toNat ≤ 16666)

/-! ### Refusals -/

/-- R88 for the two reserved codes as instructions; that their req event shows no operands is log 15. -/
def Obligations.ReservedCodesAreRefused : Prop :=
  ∀ s : State, s.phase = .idle →
    exec .reserved0 s = .next (afterRefusal 0x0 .noOperands (.refusedOp 0x0) s) ∧
    exec .reservedF s = .next (afterRefusal 0xF .noOperands (.refusedOp 0xF) s)

/-- R88: every reserved or internal code on the request port is refused when the arbiter starts it, whatever its operands are, and
only `faults`, `history` and `result` change (the request leaves the port, R21; no operands in its req event, log 15). -/
def Obligations.RequestPortRefusesReservedAndInternalCodes : Prop :=
  ∀ (s : State) (r : Request) (pick : Pick),
    s.portOut = none → s.phase = .idle → s.hostReq = some r →
    nextMove s.env = .sequencer pick → (s.irqPending = false ∨ pick = .request) →
    (r.op = 0x0 ∨ r.op = 0xA ∨ r.op = 0xB ∨ r.op = 0xC ∨ r.op = 0xD ∨ r.op = 0xE ∨ r.op = 0xF) →
    step s = .next
      (afterRefusal r.op .noOperands (.refusedOp r.op) { s with hostReq := none, env := spendMove s.env })

/-! ### The Transfer Orchestrator -/

/-- R119: what ENC_CONFIG and DELAY_OF answer is what APPLY_CONFIG stores; par = 3 is refused. The temporaries are UNW as at every
start (R24, `afterRequest`). -/
def Obligations.ApplyConfigStoresThePendingTarget : Prop :=
  ∀ (s : State) (baud : BitVec 32) (d7 st2 : BitVec 1) (par : BitVec 2), s.phase = .idle →
    if par = 3 then
      exec (.applyConfig baud d7 st2 par) s =
        .next (afterRefusal 0x7 (.line baud d7 st2 par) .refusedPar s)
    else
      ∃ w d : Word,
        exec (.encConfig baud d7 st2 par) s =
          .next (afterRequest 0x1 (.line baud d7 st2 par) (okWord w) s) ∧
        exec (.delayOf baud) s =
          .next (afterRequest 0x6 (.baud baud) (okWord d) s) ∧
        exec (.applyConfig baud d7 st2 par) s =
          .next { afterRequest 0x7 (.line baud d7 st2 par) { code := .ok, data := .noData } s with
            pendingCfg := .val w
            delayUs := .val d
            parEn := .val (decide (par = 1 ∨ par = 2))
            parOdd := .val (decide (par = 2)) }

/-- R121: the three micro-steps of PUSH_CONFIG and its fault. That the start and PUSH_WCFG are one step is the model's reading
(log 7); the temporaries are UNW from the start on and again at the end (R24, log 8). -/
def Obligations.PushConfigRunsItsMicroSteps : Prop :=
  ∀ s : State,
    (∀ p, s.phase = .idle → s.pendingCfg = .val p →
      exec .pushConfig s = .next { s with
        curCfg := .val p, phase := .pushRcfg, tResp := .unw, tByte := .unw
        env := spendAnswer s.env
        history := s.history ++ [.req 0x8 .noOperands, xferEvent p s.env] }) ∧
    (s.phase = .idle → s.pendingCfg = .unw →
      exec .pushConfig s = .next { s with
        tResp := .unw, tByte := .unw
        result := some { code := .faulted, data := .noData }
        faults := insertFault ⟨.unwritten .pendingCfg, .pushWcfg, 0x8⟩ s.faults
        history := s.history ++ [.req 0x8 .noOperands, .fault (.unwritten .pendingCfg),
          .done 0x8 { code := .faulted, data := .noData }] }) ∧
    (∀ c resp, s.phase = .pushRcfg → s.curCfg = .val c →
      responseOf (answerFor s.params.rcfgWord s.env) = resp →
      exec .pushConfig s = .next
        (if resp &&& s.params.echoMask = c &&& s.params.echoMask then
          { s with
            phase := .pushRxen, tResp := .val resp, env := spendAnswer s.env
            history := s.history ++ [xferEvent s.params.rcfgWord s.env] }
        else
          { s with
            phase := .idle, tResp := .unw, tByte := .unw, env := spendAnswer s.env
            result := some { code := .configRejected, data := .noData }
            history := s.history ++ [xferEvent s.params.rcfgWord s.env,
              .done 0x8 { code := .configRejected, data := .noData }] })) ∧
    (s.phase = .pushRxen →
      exec .pushConfig s = .next { s with
        phase := .idle, tResp := .unw, tByte := .unw, env := spendAnswer s.env
        result := some { code := .ok, data := .noData }
        history := s.history ++ [xferEvent s.params.rxenWord s.env,
          .done 0x8 { code := .ok, data := .noData }] })

/-- R121's corner case: an Err on the READ_CONFIG exchange always rejects, because RM is set in every `cur_cfg`. The temporaries end
with the operation (log 8). -/
def Obligations.FailedReadBackAlwaysRejects : Prop :=
  ∀ (s : State) (c : Word), ConfigInv s → s.phase = .pushRcfg → s.curCfg = .val c →
    answerFor s.params.rcfgWord s.env = .err →
    exec .pushConfig s = .next { s with
      phase := .idle, tResp := .unw, tByte := .unw, env := spendAnswer s.env
      result := some { code := .configRejected, data := .noData }
      history := s.history ++ [.xfer s.params.rcfgWord .err,
        .done 0x8 { code := .configRejected, data := .noData }] }

/-- A whole PUSH_CONFIG, three steps without another agent's move, with an echo that matches in ECHO_MASK (the low 12 bits): OK, and the three words in
their order (R108, R121). -/
def Obligations.PushConfigWithMatchingEchoSucceeds : Prop :=
  ∀ (s : State) (r : Request) (p : Word) (a₁ a₂ a₃ : Answer) (as : List Answer) (ms : List Move),
    s.portOut = none → s.phase = .idle → s.irqPending = false →
    s.hostReq = some r → r.op = 0x8 → s.pendingCfg = .val p →
    s.env.answers = a₁ :: a₂ :: a₃ :: as →
    s.env.schedule = .sequencer .request :: .sequencer .irq :: .sequencer .irq :: ms →
    responseOf a₂ &&& s.params.echoMask = p &&& s.params.echoMask →
    Host.Core.run Sys2Proof.core 3 s = .next { s with
      curCfg := .val p, hostReq := none, tResp := .unw, tByte := .unw
      result := some { code := .ok, data := .noData }
      env := { s.env with answers := as, schedule := ms }
      history := s.history ++ [.req 0x8 .noOperands, .xfer p (outcomeOf a₁),
        .xfer s.params.rcfgWord (outcomeOf a₂), .xfer s.params.rxenWord (outcomeOf a₃),
        .done 0x8 { code := .ok, data := .noData }] }

/-- R123: KICK_TEST and its fault. That the start and KICK_TEST are one step is the model's reading (log 7); the temporaries are
UNW from the start on and at the end (R24, log 8). -/
def Obligations.KickTestArmsTransmit : Prop :=
  ∀ s : State, s.phase = .idle →
    (∀ c resp, s.curCfg = .val c → c &&& s.params.tmMask = 0 →
      responseOf (answerFor (c ||| s.params.tmMask) s.env) = resp →
      exec .kick s = .next
        (if resp.getLsbD s.params.tBit then
          { s with
            curCfg := .val (c ||| s.params.tmMask), phase := .kickDeq
            tResp := .val resp, tByte := .unw, env := spendAnswer s.env
            history := s.history ++
              [.req 0x9 .noOperands, xferEvent (c ||| s.params.tmMask) s.env] }
        else
          { s with
            curCfg := .val (c ||| s.params.tmMask)
            tResp := .unw, tByte := .unw, env := spendAnswer s.env
            result := some { code := .ok, data := .noData }
            history := s.history ++
              [.req 0x9 .noOperands, xferEvent (c ||| s.params.tmMask) s.env,
                .done 0x9 { code := .ok, data := .noData }] })) ∧
    (∀ c, s.curCfg = .val c → c &&& s.params.tmMask ≠ 0 →
      exec .kick s = .next { s with
        tResp := .unw, tByte := .unw, result := some { code := .ok, data := .noData }
        history := s.history ++
          [.req 0x9 .noOperands, .done 0x9 { code := .ok, data := .noData }] }) ∧
    (s.curCfg = .unw →
      exec .kick s = .next { s with
        tResp := .unw, tByte := .unw
        result := some { code := .faulted, data := .noData }
        faults := insertFault ⟨.unwritten .curCfg, .kickTest, 0x9⟩ s.faults
        history := s.history ++ [.req 0x9 .noOperands, .fault (.unwritten .curCfg),
          .done 0x9 { code := .faulted, data := .noData }] })

/-- R124, R125: KICK_DEQ and KICK_WDATA, with the parity mode of `par_en` and `par_odd`, and their faults. The
temporaries end with the operation (log 8). -/
def Obligations.KickSendsAtMostOneByte : Prop :=
  ∀ s : State,
    (∀ b bs, s.phase = .kickDeq → s.txq = b :: bs →
      exec .kick s = .next { s with
        txq := bs, tByte := .val b, phase := .kickWdata
        history := s.history ++ [.deq (some b)] }) ∧
    (s.phase = .kickDeq → s.txq = [] →
      exec .kick s = .next { s with
        phase := .idle, tResp := .unw, tByte := .unw
        result := some { code := .ok, data := .noData }
        history := s.history ++ [.deq none, .done 0x9 { code := .ok, data := .noData }] }) ∧
    (∀ b en odd, s.phase = .kickWdata → s.tByte = .val b → s.parEn = .val en →
      s.parOdd = .val odd →
      exec .kick s = .next { s with
        phase := .idle, tResp := .unw, tByte := .unw, env := spendAnswer s.env
        result := some { code := .ok, data := .noData }
        history := s.history ++
          [xferEvent (dataWord s.params b
            (if en = false then .none else if odd = false then .even else .odd)) s.env,
            .done 0x9 { code := .ok, data := .noData }] }) ∧
    (∀ b, s.phase = .kickWdata → s.tByte = .val b → s.parEn = .unw →
      exec .kick s = .next { s with
        phase := .idle, tResp := .unw, tByte := .unw
        result := some { code := .faulted, data := .noData }
        faults := insertFault ⟨.unwritten .parEn, .kickWdata, 0x9⟩ s.faults
        history := s.history ++ [.fault (.unwritten .parEn),
          .done 0x9 { code := .faulted, data := .noData }] }) ∧
    (∀ b en, s.phase = .kickWdata → s.tByte = .val b → s.parEn = .val en → s.parOdd = .unw →
      exec .kick s = .next { s with
        phase := .idle, tResp := .unw, tByte := .unw
        result := some { code := .faulted, data := .noData }
        faults := insertFault ⟨.unwritten .parOdd, .kickWdata, 0x9⟩ s.faults
        history := s.history ++ [.fault (.unwritten .parOdd),
          .done 0x9 { code := .faulted, data := .noData }] })

/-- R125, R126 with a byte queued: STX_DEQ and STX_WDATA, TM stays as it is; STX_WDATA's faults: `par_en` is read first, an UNW flag
ends the dispatch with no exchange and no result (R156). The code 0xC is log 16, the end of the temporaries log 8. -/
def Obligations.ServiceTxSendsTheOldestByte : Prop :=
  ∀ s : State,
    (∀ b bs, s.phase = .stxDeq → s.txq = b :: bs →
      exec .serviceTx s = .next { s with
        txq := bs, tByte := .val b, phase := .stxWdata
        history := s.history ++ [.deq (some b)] }) ∧
    (∀ b en odd, s.phase = .stxWdata → s.tByte = .val b → s.parEn = .val en →
      s.parOdd = .val odd →
      exec .serviceTx s = .next { s with
        phase := .idle, tResp := .unw, tByte := .unw, env := spendAnswer s.env
        history := s.history ++
          [xferEvent (dataWord s.params b
            (if en = false then .none else if odd = false then .even else .odd)) s.env] }) ∧
    (∀ b, s.phase = .stxWdata → s.tByte = .val b → s.parEn = .unw →
      exec .serviceTx s = .next { s with
        phase := .idle, tResp := .unw, tByte := .unw
        faults := insertFault ⟨.unwritten .parEn, .stxWdata, 0xC⟩ s.faults
        history := s.history ++ [.fault (.unwritten .parEn)] }) ∧
    (∀ b en, s.phase = .stxWdata → s.tByte = .val b → s.parEn = .val en → s.parOdd = .unw →
      exec .serviceTx s = .next { s with
        phase := .idle, tResp := .unw, tByte := .unw
        faults := insertFault ⟨.unwritten .parOdd, .stxWdata, 0xC⟩ s.faults
        history := s.history ++ [.fault (.unwritten .parOdd)] })

/-- R126 on an empty queue: STX_DEQ, STX_CLR with its faults (delay_us is read first; the code is the dispatch's, log 16), STX_WAIT
(which reads delay_us, log 17; tickRest is the model's own, log 18), STX_RXEN. The temporaries end with the dispatch (log 8). -/
def Obligations.ServiceTxReleasesTheLine : Prop :=
  ∀ s : State,
    (s.phase = .stxDeq → s.txq = [] →
      exec .serviceTx s = .next { s with phase := .stxClr, history := s.history ++ [.deq none] }) ∧
    (∀ d c, s.phase = .stxClr → s.delayUs = .val d → s.curCfg = .val c →
      exec .serviceTx s = .next { s with
        curCfg := .val (c &&& ~~~ s.params.tmMask), phase := .stxWait, waitElapsed := .val 0
        tickRest := 0
        env := spendAnswer s.env
        history := s.history ++
          [xferEvent (c &&& ~~~ s.params.tmMask) s.env, .waitBegin d] }) ∧
    (s.phase = .stxClr → s.delayUs = .unw →
      exec .serviceTx s = .next { s with
        phase := .idle, tResp := .unw, tByte := .unw
        faults := insertFault ⟨.unwritten .delayUs, .stxClr, 0xC⟩ s.faults
        history := s.history ++ [.fault (.unwritten .delayUs)] }) ∧
    (∀ d, s.phase = .stxClr → s.delayUs = .val d → s.curCfg = .unw →
      exec .serviceTx s = .next { s with
        phase := .idle, tResp := .unw, tByte := .unw
        faults := insertFault ⟨.unwritten .curCfg, .stxClr, 0xC⟩ s.faults
        history := s.history ++ [.fault (.unwritten .curCfg)] }) ∧
    (∀ d us, s.phase = .stxWait → s.delayUs = .val d → s.waitElapsed = .val us →
      exec .serviceTx s = .next
        (if us < d.toNat then s
        else { s with
          phase := .stxRxen, waitElapsed := .unw, tickRest := 0
          history := s.history ++ [.waitEnd] })) ∧
    (s.phase = .stxRxen →
      exec .serviceTx s = .next { s with
        phase := .idle, tResp := .unw, tByte := .unw, env := spendAnswer s.env
        history := s.history ++ [xferEvent s.params.rxenWord s.env] })

/-- R64, R126, R127: from STX_CLR, once ticks of at least `delay_us` microseconds were counted, the TM-cleared word, the two ends of the wait
and the receive-enable word stand in the history in that order, and nothing else. -/
def Obligations.ReleaseSequenceRunsInOrder : Prop :=
  ∀ (s : State) (d c : Word) (ticks : Nat) (p₁ p₂ p₃ : Pick) (ms : List Move),
    s.portOut = none → s.phase = .stxClr → s.delayUs = .val d → s.curCfg = .val c →
    d.toNat * s.params.tickHz ≤ ticks * 1000000 →
    s.env.schedule = .sequencer p₁ :: .timeBase ticks :: .sequencer p₂ :: .sequencer p₃ :: ms →
    ∃ t r₁ r₂, Host.Core.run Sys2Proof.core 4 s = .next t ∧ t.phase = .idle ∧
      t.curCfg = .val (c &&& ~~~ s.params.tmMask) ∧
      t.history = s.history ++ [.xfer (c &&& ~~~ s.params.tmMask) r₁, .waitBegin d, .waitEnd,
        .xfer s.params.rxenWord r₂]

/-- R128: exactly one deliver event, the received byte of the probe's response (bits 7 to 0 with R6's defaults), and the queue
untouched; whatever the Line Sink does with it stays in `env`. The temporaries end with the dispatch (log 8). -/
def Obligations.ServiceRxDeliversOneByte : Prop :=
  ∀ (s : State) (resp : Word), s.phase = .dispRx → s.tResp = .val resp →
    ∃ b : Byte, b = resp.extractLsb' s.params.rxLo 8 ∧
      (DefaultLayout s.params → b = resp.setWidth 8) ∧
      exec .serviceRx s = .next { s with
        phase := .idle, tResp := .unw, tByte := .unw, env := sinkTake b s.env
        history := s.history ++ [.deliver b] }

/-- R146: the block is not told what the Line Sink did: two draws that differ lead to states that differ in the sink alone. -/
def Obligations.LineSinkChoiceIsInvisible : Prop :=
  ∀ (i : Instr) (s t u : State) (k₁ k₂ : Bool) (ks : List Bool),
    exec i { s with env := { s.env with sinkDraws := k₁ :: ks } } = .next t →
    exec i { s with env := { s.env with sinkDraws := k₂ :: ks } } = .next u →
    u = { t with env := { t.env with sinkDraws := u.env.sinkDraws, line := u.env.line } }

/-! ### The Interrupt Dispatcher -/

/-- R133 to R135: taking the interrupt and the probe, receive-ready first (R_BIT), then transmit-empty (T_BIT), spurious when neither
bit is set; a spurious dispatch ends, and its temporaries with it (log 8). -/
def Obligations.IrqDispatchProbesAndBranches : Prop :=
  ∀ (s : State) (resp : Word), s.phase = .idle → s.irqPending = true →
    responseOf (answerFor s.params.probeWord s.env) = resp →
    exec .irqDispatch s = .next { s with
      irqPending := false, tByte := .unw, env := spendAnswer s.env
      tResp := if resp.getLsbD s.params.rBit ∨ resp.getLsbD s.params.tBit then .val resp else .unw
      phase := if resp.getLsbD s.params.rBit then .dispRx
        else if resp.getLsbD s.params.tBit then .stxDeq else .idle
      history := s.history ++ [xferEvent s.params.probeWord s.env] }

/-- R131: an edge, in any phase, is one event and sets the latch; nothing else changes. -/
def Obligations.IrqEdgeSetsTheLatch : Prop :=
  ∀ s : State, s.portOut = none → nextMove s.env = .irqSource →
    step s = .next { s with
      irqPending := true, env := spendMove s.env, history := s.history ++ [.irqEdge] }

/-- R140: a dispatch neither reads nor writes the request port and `result`: with other contents there it does the same and leaves
them as they were. -/
def Obligations.DispatchIgnoresRequestAndResult : Prop :=
  ∀ (i : Instr) (s t : State) (req : Option Request) (res : Option Result),
    i = .irqDispatch ∨ i = .serviceRx ∨ i = .serviceTx → exec i s = .next t →
    exec i { s with hostReq := req, result := res } =
      .next { t with hostReq := req, result := res }

/-! ### The Transmit Queue -/

/-- R111: FULL leaves the queue, OK appends the byte; no fault, no result. -/
def Obligations.EnqueueAnswersOkOrFull : Prop :=
  ∀ (s : State) (b : Byte),
    exec (.enqueue b) s = .next
      (if s.txq.length = s.params.qcap then
        { s with qAnswer := some .full, history := s.history ++ [.enq b .full] }
      else
        { s with
          txq := s.txq ++ [b], qAnswer := some .ok, history := s.history ++ [.enq b .ok] })

/-- R112 in its two micro-steps (log 14): the oldest byte and its removal, or None and an empty queue. In KICK_DEQ an empty queue ends
the KICK, and the temporaries end with it (log 8). -/
def Obligations.DequeueTakesTheOldestByte : Prop :=
  ∀ s : State,
    (∀ b bs, s.txq = b :: bs →
      (s.phase = .kickDeq → exec .dequeue s = .next { s with
        txq := bs, tByte := .val b, phase := .kickWdata
        history := s.history ++ [.deq (some b)] }) ∧
      (s.phase = .stxDeq → exec .dequeue s = .next { s with
        txq := bs, tByte := .val b, phase := .stxWdata
        history := s.history ++ [.deq (some b)] })) ∧
    (s.txq = [] →
      (s.phase = .kickDeq → exec .dequeue s = .next { s with
        phase := .idle, tResp := .unw, tByte := .unw
        result := some { code := .ok, data := .noData }
        history := s.history ++ [.deq none, .done 0x9 { code := .ok, data := .noData }] }) ∧
      (s.phase = .stxDeq → exec .dequeue s = .next { s with
        phase := .stxClr, history := s.history ++ [.deq none] }))

/-- R113: the bytes dequeued are a prefix of the bytes enqueued, in order, as what is still queued completes them. -/
def Obligations.QueueStaysFifo : Prop :=
  ∀ s t : State, FifoInv s → step s = .next t → FifoInv t

/-- R35 I1, R114. -/
def Obligations.QueueStaysWithinCapacity : Prop :=
  ∀ s t : State, CapacityInv s → step s = .next t → CapacityInv t ∧ t.params = s.params

/-- R19, R115: the queue grows at its end by ENQUEUE and shrinks at its front by DEQUEUE, and nothing else changes it. -/
def Obligations.OnlyQueueOperationsChangeTheQueue : Prop :=
  ∀ (i : Instr) (s t : State), exec i s = .next t → t.txq ≠ s.txq →
    (∃ b, i = .enqueue b ∧ t.txq = s.txq ++ [b]) ∨
    (∃ b, s.txq = b :: t.txq ∧
      ((s.phase = .kickDeq ∧ (i = .kick ∨ i = .dequeue)) ∨
        (s.phase = .stxDeq ∧ (i = .serviceTx ∨ i = .dequeue))))

/-! ### Registers: who writes them -/

/-- R12: `cur_cfg` changes in PUSH_WCFG, KICK_TEST and STX_CLR only (and by a WRITE_CONFIG word put on the port, log 13). -/
def Obligations.OnlyThreePlacesWriteCurCfg : Prop :=
  ∀ (i : Instr) (s t : State), exec i s = .next t → t.curCfg ≠ s.curCfg →
    (i = .pushConfig ∧ (s.phase = .idle ∨ s.phase = .pushWcfg) ∧ t.curCfg = s.pendingCfg) ∨
    (i = .kick ∧ (s.phase = .idle ∨ s.phase = .kickTest) ∧
      ∃ c, s.curCfg = .val c ∧ t.curCfg = .val (c ||| s.params.tmMask)) ∨
    (i = .serviceTx ∧ s.phase = .stxClr ∧
      ∃ c, s.curCfg = .val c ∧ t.curCfg = .val (c &&& ~~~ s.params.tmMask)) ∨
    (∃ markFenN shdn tm rm pm ram ir st pe l baud,
      i = .writeConfig markFenN shdn tm rm pm ram ir st pe l baud)

/-- R120. -/
def Obligations.OnlyApplyWritesTheDerivedRegisters : Prop :=
  ∀ (i : Instr) (s t : State), exec i s = .next t →
    (∀ baud d7 st2 par, i ≠ .applyConfig baud d7 st2 par) →
    t.pendingCfg = s.pendingCfg ∧ t.delayUs = s.delayUs ∧ t.parEn = s.parEn ∧ t.parOdd = s.parOdd

/-- R35 I2 to I4 and R82: every step keeps ConfigInv. -/
def Obligations.ConfigurationWordsStayLegal : Prop :=
  ∀ s t : State, ConfigInv s → step s = .next t → ConfigInv t

/-- R13, R35 I2, I3 from ConfigInv: the constant bits of both configuration registers, and TM clear in `pending_cfg`. -/
def Obligations.ConfigurationConstantBitsHold : Prop :=
  ∀ (s : State) (w : Word), ConfigInv s →
    (s.curCfg = .val w ∨ s.pendingCfg = .val w → w &&& 0xF780 = 0xC400) ∧
    (s.pendingCfg = .val w → w &&& 0x0800 = 0)

/-- R22, R24, R25, R170: every step keeps PhaseInv: in each phase `t_resp`, `t_byte` and `cur_cfg` stand written where an earlier
micro-step of the operation wrote them, and at IDLE the temporaries are UNW (log 8). It asks nothing of the registers that may still be UNW,
`delay_us` and `cur_cfg` in STX_CLR and the parity flags in STX_WDATA. Its False clauses for PUSH_WCFG, KICK_TEST and
DISP_PROBE say that no run rests there: the start and the first micro-step are one step (log 7). -/
def Obligations.PhasesStayPrepared : Prop :=
  ∀ s t : State, PhaseInv s → step s = .next t → PhaseInv t

/-- All invariants hold after reset, and reset is a launch record (R36, R169, R183). -/
def Obligations.InvariantsHoldAtReset : Prop :=
  FifoInv State.reset ∧ CapacityInv State.reset ∧ ConfigInv State.reset ∧ PhaseInv State.reset ∧
    Launch State.reset

/-- R36. -/
def Obligations.ResetLeavesTheTable : Prop :=
  State.reset.curCfg = .unw ∧ State.reset.pendingCfg = .unw ∧ State.reset.delayUs = .unw ∧
  State.reset.parEn = .unw ∧ State.reset.parOdd = .unw ∧ State.reset.txq = [] ∧
  State.reset.irqPending = false ∧ State.reset.hostReq = none ∧ State.reset.phase = .idle ∧
  State.reset.tResp = .unw ∧ State.reset.tByte = .unw ∧ State.reset.waitElapsed = .unw ∧
  State.reset.result = none ∧ State.reset.faults = [] ∧ State.reset.history = []

/-- R148, R169: the reset event, in any phase, gives every register of the block its reset value. The parameters stay, and so do the
agents around the block (log 20), but the Host drops the macro it had begun. -/
def Obligations.ResetEventAbandonsTheOperation : Prop :=
  ∀ s : State, s.portOut = none → nextMove s.env = .reset →
    step s = .next { State.reset with params := s.params, env := spendMove s.env, host := { s.host with current := [] } }

/-! ### The machine -/

/-- What a step runs: the word on the transfer port; the operation in progress; the request or the dispatch the arbiter starts
(R23), for each of R71's request codes 0x1 to 0x9; an ENQUEUE of the Host's script. -/
def Obligations.StepRunsTheDecodedInstruction : Prop :=
  ∀ s : State,
    (∀ w, s.portOut = some w → step s = exec (decodeWire s.params w) { s with portOut := none }) ∧
    (∀ pick i, s.portOut = none → nextMove s.env = .sequencer pick → phaseOp s.phase = some i →
      step s = exec i { s with env := spendMove s.env }) ∧
    (∀ pick r, s.portOut = none → nextMove s.env = .sequencer pick → s.phase = .idle →
      s.hostReq = some r → (s.irqPending = false ∨ pick = .request) →
      0x1 ≤ r.op.toNat → r.op.toNat ≤ 0x9 →
      step s = exec (decodeRequest r) { s with hostReq := none, env := spendMove s.env }) ∧
    (∀ pick, s.portOut = none → nextMove s.env = .sequencer pick → s.phase = .idle →
      s.irqPending = true → (s.hostReq = none ∨ pick = .irq) →
      step s = exec .irqDispatch { s with env := spendMove s.env }) ∧
    (∀ b a, s.portOut = none → nextMove s.env = .host → hostWaits s = false →
      nextCmd s.host = some (.enqueue b, a) →
      step s = exec (.enqueue b) { s with env := spendMove s.env, host := a })

/-- R23, R58, R138: an operation does nothing where it cannot start and is not in progress: in a phase of another operation, and at
IDLE for those the arbiter does not start there (DEQUEUE, SERVICE_TX, SERVICE_RX, IRQ_DISPATCH without an edge). That exec leaves
the state as it is there is the model's reading (log 14). -/
def Obligations.OperationsWaitOutsideTheirPhases : Prop :=
  ∀ (i : Instr) (s : State), formatOf i = .request → (∀ b, i ≠ .enqueue b) →
    phaseOp s.phase ≠ some i →
    (i = .dequeue → s.phase ≠ .kickDeq ∧ s.phase ≠ .stxDeq) →
    (s.phase = .idle →
      i = .dequeue ∨ i = .serviceTx ∨ i = .serviceRx ∨ i = .irqDispatch ∧ s.irqPending = false) →
    exec i s = .next s

/-- R23: with neither an edge nor a request pending at IDLE the Sequencer has no step; that is no fault. -/
def Obligations.IdleSequencerDoesNothing : Prop :=
  ∀ (s : State) (pick : Pick), s.portOut = none → nextMove s.env = .sequencer pick →
    s.phase = .idle → s.irqPending = false → s.hostReq = none →
    step s = .next { s with env := spendMove s.env }

/-- R153: no step stops the machine. -/
def Obligations.StepNeverStops : Prop := ∀ s : State, ∃ t, step s = .next t

/-- R153, R156: an instruction that records a fault or completes a request is at IDLE afterwards. -/
def Obligations.FaultOrCompletionReturnsToIdle : Prop :=
  ∀ (i : Instr) (s t : State), exec i s = .next t →
    (∃ e ∈ newEvents s t, (∃ k, e = .fault k) ∨ ∃ op r, e = .done op r) → t.phase = .idle

/-- R157: at most one fault is recorded in a step, and it is in `faults`. -/
def Obligations.AtMostOneFaultPerStep : Prop :=
  ∀ s t : State, step s = .next t →
    ((newEvents s t).filter fun e => match e with | .fault _ => true | _ => false).length ≤ 1 ∧
    ∀ k, .fault k ∈ newEvents s t → ∃ e ∈ t.faults, e.kind = k

/-- R9, R48, R59: a step has at most one external event of the Sequencer. -/
def Obligations.AtMostOneExternalEventPerStep : Prop :=
  ∀ s t : State, step s = .next t → ((newEvents s t).filter Event.isExternal).length ≤ 1

/-- R27, R28: but for the reset event, history is only appended to and no fault is forgotten. -/
def Obligations.HistoryAndFaultsOnlyGrow : Prop :=
  ∀ s t : State, step s = .next t → (s.portOut = none → nextMove s.env ≠ .reset) →
    s.history <+: t.history ∧ ∀ e ∈ s.faults, e ∈ t.faults

/-- R58, R127, R138: while an operation is in progress nothing starts: no request event, the latch and the waiting request stay. -/
def Obligations.NothingStartsDuringAnOperation : Prop :=
  ∀ s t : State, step s = .next t → s.portOut = none → s.phase ≠ .idle → nextMove s.env ≠ .reset →
    (∀ op ops, .req op ops ∉ newEvents s t) ∧ (s.irqPending = true → t.irqPending = true) ∧
    (∀ r, s.hostReq = some r → t.hostReq = some r)

/-- R25, R32: the time base counts its ticks into `wait_elapsed` in STX_WAIT and does nothing in any other phase. Whole microseconds go
to `wait_elapsed`, less than one stays in `tickRest`, the model's own field (log 18). -/
def Obligations.TimeBaseAdvancesOnlyTheWait : Prop :=
  ∀ (s : State) (ticks : Nat), s.portOut = none → nextMove s.env = .timeBase ticks →
    (∀ n, s.phase = .stxWait → s.waitElapsed = .val n →
      ∃ m rest, m * s.params.tickHz + rest =
          n * s.params.tickHz + s.tickRest + ticks * 1000000 ∧ rest < s.params.tickHz ∧
        step s = .next { s with
          waitElapsed := .val m, tickRest := rest, env := spendMove s.env }) ∧
    (s.phase ≠ .stxWait → step s = .next { s with env := spendMove s.env })

/-- R161: from the entry of STX_WAIT, whatever moves the ticks come in, the Sequencer's move ends the wait exactly when
ceil(delay_us * TICK_HZ / 1000000) ticks or more were counted, and holds it before. -/
def Obligations.WaitEndsAfterEnoughTicks : Prop :=
  ∀ (s : State) (d : Word) (counts : List Nat), s.phase = .stxWait → s.delayUs = .val d →
    s.waitElapsed = .val 0 → s.tickRest = 0 →
    let t := counts.foldl (fun u ticks => timePasses ticks u) s
    exec .serviceTx t = .next
      (if (d.toNat * s.params.tickHz + 999999) / 1000000 ≤ counts.sum then
        { s with
          phase := .stxRxen, waitElapsed := .unw, history := s.history ++ [.waitEnd] }
      else t)

/-- R25: nothing but the time base increases `wait_elapsed`. -/
def Obligations.OnlyTheTimeBaseIncreasesTheWait : Prop :=
  ∀ (s t : State) (n m : Nat), step s = .next t → s.waitElapsed = .val n →
    t.waitElapsed = .val m → n < m →
    s.portOut = none ∧ ∃ ticks, nextMove s.env = .timeBase ticks ∧
      m = n + (s.tickRest + ticks * 1000000) / s.params.tickHz

/-- R184: after the end of a run nothing happens but a reset event: the block stays as it is, and the run stays ended. -/
def Obligations.AfterTheEndNothingHappens : Prop :=
  ∀ s t : State, Ended s → s.portOut = none → nextMove s.env ≠ .reset → step s = .next t →
    Ended t ∧ t = { s with env := t.env, host := t.host }

/-! ### The Host -/

/-- R141: while a request of its own is outstanding the Host issues nothing, neither a request nor an ENQUEUE
(the Host agent is log 19). -/
def Obligations.HostWaitsForItsRequest : Prop :=
  ∀ s : State, s.portOut = none → nextMove s.env = .host → hostWaits s = true →
    step s = .next { s with env := spendMove s.env }

/-- A move of the Host reaches the block through its ports alone (R30, R31, R149); `irq_pending` changes only where the script's next
line is an edge of the IRQ source (R92, log 23). -/
def Obligations.HostReachesOnlyThePorts : Prop :=
  ∀ s t : State, step s = .next t → s.portOut = none → nextMove s.env = .host →
    t = { s with
      hostReq := t.hostReq, txq := t.txq, qAnswer := t.qAnswer, history := t.history
      irqPending := t.irqPending, env := t.env, host := t.host } ∧
    (t.irqPending ≠ s.irqPending → ∃ a, nextCmd s.host = some (.edge, a))

/-- R142: the submit loop. FULL: KICK, then the same byte again; OK: the next byte; after the last byte one more KICK. -/
def Obligations.SubmitLoopKicksAndRetries : Prop :=
  ∀ (s : State) (a : HostAgent), s.portOut = none → nextMove s.env = .host →
    hostWaits s = false →
    (∀ b bs, nextCmd s.host = some (.write (b :: bs), a) →
      step s = .next
        (if s.txq.length = s.params.qcap then
          { s with
            qAnswer := some .full, env := spendMove s.env, history := s.history ++ [.enq b .full]
            host := { a with
              current := .request (bareRequest 0x9) :: .write (b :: bs) :: a.current } }
        else
          { s with
            txq := s.txq ++ [b], qAnswer := some .ok, env := spendMove s.env
            history := s.history ++ [.enq b .ok]
            host := { a with current := .write bs :: a.current } })) ∧
    (nextCmd s.host = some (.write [], a) →
      step s = .next { s with
        hostReq := some (bareRequest 0x9), env := spendMove s.env, host := a })

/-- R143: LINECFG issues APPLY_CONFIG, then PUSH_CONFIG, then hands the PUSH result to the caller. The second clause is how the Host
issues any request of its script or of a macro it has begun (R21, R30, R141). -/
def Obligations.LineConfigurationAppliesThenPushes : Prop :=
  ∀ (s : State) (a : HostAgent), s.portOut = none → nextMove s.env = .host →
    hostWaits s = false →
    (∀ baud d7 st2 par, nextCmd s.host = some (.lineCfg baud d7 st2 par, a) →
      step s = .next { s with
        hostReq := some { bareRequest 0x7 with baud := baud, d7 := d7, st2 := st2, par := par }
        env := spendMove s.env
        host := { a with current := .request (bareRequest 0x8) :: .lineReport :: a.current } }) ∧
    (∀ r, nextCmd s.host = some (.request r, a) →
      step s = .next { s with hostReq := some r, env := spendMove s.env, host := a }) ∧
    (nextCmd s.host = some (.lineReport, a) →
      step s = .next { s with
        env := spendMove s.env
        host := { a with replies := a.replies ++ [.lineResult s.result] } })

/-- R144, R145: open fails while a session is active, close clears it and keeps queued data, write room is always unbounded; none of
them touches the block. -/
def Obligations.SessionAndWriteRoomStayAtTheHost : Prop :=
  ∀ (s : State) (a : HostAgent), s.portOut = none → nextMove s.env = .host →
    hostWaits s = false →
    (nextCmd s.host = some (.openSession, a) →
      step s = .next { s with
        env := spendMove s.env
        host := { a with
          session := true
          replies := a.replies ++ [if s.host.session then .deviceBusy else .sessionOpened] } }) ∧
    (nextCmd s.host = some (.closeSession, a) →
      step s = .next { s with
        env := spendMove s.env
        host := { a with session := false, replies := a.replies ++ [.sessionClosed] } }) ∧
    (nextCmd s.host = some (.writeRoom, a) →
      step s = .next { s with
        env := spendMove s.env
        host := { a with replies := a.replies ++ [.unbounded] } })

/-- R92: at its place in the script `!irq` is one edge, `!answer` appends to the Transfer Resource's answers, and `!sink` sets what
happens to the next delivered byte, whatever was set for it before. -/
def Obligations.ScriptLinesReachTheirAgents : Prop :=
  ∀ (s : State) (a : HostAgent), s.portOut = none → nextMove s.env = .host →
    hostWaits s = false →
    (nextCmd s.host = some (.edge, a) →
      step s = .next { s with
        irqPending := true, env := spendMove s.env, host := a
        history := s.history ++ [.irqEdge] }) ∧
    (∀ x, nextCmd s.host = some (.answer x, a) →
      step s = .next { s with
        env := { spendMove s.env with answers := s.env.answers ++ [x] }, host := a }) ∧
    (∀ keep, nextCmd s.host = some (.sink keep, a) →
      step s = .next { s with
        env := { spendMove s.env with sinkDraws := keep :: s.env.sinkDraws.tail }, host := a })
end

