-- ==== Sys2Proof/Laws/Encoding.lean ====
section
/-! SUPPORT. The bytes of a wire word and of a request record, and the fields read back from them. -/

namespace Sys2Proof

open Sys2Proof.Machine

/-- The two bytes of a word, joined, are the word (R53, R54). -/
@[simp] theorem joinBytes_hi_lo (w : Word) : joinBytes (hiByte w) (loByte w) = w := by
  unfold joinBytes hiByte loByte
  ext j hj
  simp only [BitVec.getElem_append, BitVec.getElem_extractLsb']
  split
  · simp [BitVec.getLsbD_eq_getElem, hj]
  · rw [show 8 + (j - 8) = j by omega, BitVec.getLsbD_eq_getElem]

@[simp] theorem hiByte_join (h l : Byte) : hiByte (joinBytes h l) = h := by
  unfold joinBytes hiByte
  ext j hj
  simp only [BitVec.getElem_extractLsb', BitVec.getLsbD_append]
  interval_cases j <;> simp [BitVec.getLsbD_eq_getElem]

@[simp] theorem loByte_join (h l : Byte) : loByte (joinBytes h l) = l := by
  unfold joinBytes loByte
  ext j hj
  simp only [BitVec.getElem_extractLsb', BitVec.getLsbD_append]
  interval_cases j <;> simp [BitVec.getLsbD_eq_getElem]

/-- A prepared answer's response is its word (R53). -/
@[simp] theorem responseOf_answerOk (v : Word) : responseOf (answerOk v) = v := joinBytes_hi_lo v

/-- A wire word of the layout decodes to its instruction (R83). -/
theorem decodeWire_encodeWire {p : Params} {i : Instr} {c : WordClass} (h : classOf i = some c)
    (hf : fitsLayout p i) : decodeWire p (encodeWire i) = i := by
  have hc := hf c h
  cases i <;> first | (injection h with h; subst h) | nomatch h
  case readConfig => rw [decodeWire, hc]; rfl
  case readData => rw [decodeWire, hc]; rfl
  all_goals
    rw [decodeWire, hc]
    dsimp only
    congr 1 <;>
      (unfold encodeWire
       ext j hj
       simp only [BitVec.getElem_extractLsb', BitVec.getLsbD_append]
       interval_cases j <;> simp [BitVec.getLsbD_eq_getElem])

/-- Bits 15 to 14, kept in place. -/
theorem and_classBits (w : Word) : w &&& 0xC000 = w.extractLsb' 14 2 ++ (0 : BitVec 14) := by
  ext j hj
  simp only [BitVec.getElem_and, BitVec.getElem_append, BitVec.getElem_extractLsb']
  interval_cases j <;> simp [BitVec.getLsbD_eq_getElem]

/-- The record of 64 bits reads back as the record (log 12). -/
@[simp] theorem requestOfBits_requestBits (r : Request) : requestOfBits (requestBits r) = r := by
  cases r
  unfold requestOfBits requestBits
  congr 1 <;>
    (ext j hj
     simp only [BitVec.getElem_extractLsb', BitVec.getLsbD_append]
     interval_cases j <;> simp [BitVec.getLsbD_eq_getElem])

/-- The eight bytes of a record hold its 64 bits (log 12). -/
theorem decodeBytes_record (p : Params) (v : BitVec 64) (rest : List Byte) :
    decodeBytes p .request (recordBytes v ++ rest) = .ok (decodeRequest (requestOfBits v), rest) := by
  have hv : v.extractLsb' 56 8 ++ v.extractLsb' 48 8 ++ v.extractLsb' 40 8 ++ v.extractLsb' 32 8
      ++ v.extractLsb' 24 8 ++ v.extractLsb' 16 8 ++ v.extractLsb' 8 8 ++ v.extractLsb' 0 8 = v := by
    ext j hj
    simp only [BitVec.getElem_append, BitVec.getElem_extractLsb']
    interval_cases j <;> simp [BitVec.getLsbD_eq_getElem]
  simp only [recordBytes, List.cons_append, List.nil_append, decodeBytes]
  rw [hv]

/-- A wire word's two bytes decode to what the word decodes to (R54, R83). -/
theorem decodeBytes_wire (p : Params) (w : Word) (rest : List Byte) :
    decodeBytes p .wire16 (hiByte w :: loByte w :: rest) = .ok (decodeWire p w, rest) := by
  simp [decodeBytes]

/-- A request record never decodes to a wire word (R71). -/
theorem formatOf_decodeRequest (r : Request) : formatOf (decodeRequest r) = .request := by
  have pick (c : Prop) [Decidable c] (a b : Instr) (ha : formatOf a = .request)
      (hb : formatOf b = .request) : formatOf (if c then a else b) = .request := by
    split <;> assumption
  unfold decodeRequest
  iterate 15 refine pick _ _ _ rfl ?_
  rfl

end Sys2Proof
end

