-- ==== Sys2Proof/Laws/State.lean ====
section
/-! SUPPORT. One lemma per field per update of the state, so that no proof unfolds a record update. -/

namespace Sys2Proof.Machine

/-! ### logEvent -/

@[simp] theorem logEvent_curCfg (e : Event) (s : State) : (logEvent e s).curCfg = s.curCfg := rfl
@[simp] theorem logEvent_pendingCfg (e : Event) (s : State) : (logEvent e s).pendingCfg = s.pendingCfg := rfl
@[simp] theorem logEvent_delayUs (e : Event) (s : State) : (logEvent e s).delayUs = s.delayUs := rfl
@[simp] theorem logEvent_parEn (e : Event) (s : State) : (logEvent e s).parEn = s.parEn := rfl
@[simp] theorem logEvent_parOdd (e : Event) (s : State) : (logEvent e s).parOdd = s.parOdd := rfl
@[simp] theorem logEvent_txq (e : Event) (s : State) : (logEvent e s).txq = s.txq := rfl
@[simp] theorem logEvent_irqPending (e : Event) (s : State) : (logEvent e s).irqPending = s.irqPending := rfl
@[simp] theorem logEvent_hostReq (e : Event) (s : State) : (logEvent e s).hostReq = s.hostReq := rfl
@[simp] theorem logEvent_phase (e : Event) (s : State) : (logEvent e s).phase = s.phase := rfl
@[simp] theorem logEvent_tResp (e : Event) (s : State) : (logEvent e s).tResp = s.tResp := rfl
@[simp] theorem logEvent_tByte (e : Event) (s : State) : (logEvent e s).tByte = s.tByte := rfl
@[simp] theorem logEvent_waitElapsed (e : Event) (s : State) : (logEvent e s).waitElapsed = s.waitElapsed := rfl
@[simp] theorem logEvent_tickRest (e : Event) (s : State) : (logEvent e s).tickRest = s.tickRest := rfl
@[simp] theorem logEvent_result (e : Event) (s : State) : (logEvent e s).result = s.result := rfl
@[simp] theorem logEvent_faults (e : Event) (s : State) : (logEvent e s).faults = s.faults := rfl
@[simp] theorem logEvent_history (e : Event) (s : State) : (logEvent e s).history = s.history ++ [e] := rfl
@[simp] theorem logEvent_qAnswer (e : Event) (s : State) : (logEvent e s).qAnswer = s.qAnswer := rfl
@[simp] theorem logEvent_portOut (e : Event) (s : State) : (logEvent e s).portOut = s.portOut := rfl
@[simp] theorem logEvent_params (e : Event) (s : State) : (logEvent e s).params = s.params := rfl
@[simp] theorem logEvent_env (e : Event) (s : State) : (logEvent e s).env = s.env := rfl
@[simp] theorem logEvent_host (e : Event) (s : State) : (logEvent e s).host = s.host := rfl

/-! ### setPhase -/

@[simp] theorem setPhase_curCfg (p : Phase) (s : State) : (setPhase p s).curCfg = s.curCfg := rfl
@[simp] theorem setPhase_pendingCfg (p : Phase) (s : State) : (setPhase p s).pendingCfg = s.pendingCfg := rfl
@[simp] theorem setPhase_delayUs (p : Phase) (s : State) : (setPhase p s).delayUs = s.delayUs := rfl
@[simp] theorem setPhase_parEn (p : Phase) (s : State) : (setPhase p s).parEn = s.parEn := rfl
@[simp] theorem setPhase_parOdd (p : Phase) (s : State) : (setPhase p s).parOdd = s.parOdd := rfl
@[simp] theorem setPhase_txq (p : Phase) (s : State) : (setPhase p s).txq = s.txq := rfl
@[simp] theorem setPhase_irqPending (p : Phase) (s : State) : (setPhase p s).irqPending = s.irqPending := rfl
@[simp] theorem setPhase_hostReq (p : Phase) (s : State) : (setPhase p s).hostReq = s.hostReq := rfl
@[simp] theorem setPhase_phase (p : Phase) (s : State) : (setPhase p s).phase = p := rfl
@[simp] theorem setPhase_tResp (p : Phase) (s : State) : (setPhase p s).tResp = s.tResp := rfl
@[simp] theorem setPhase_tByte (p : Phase) (s : State) : (setPhase p s).tByte = s.tByte := rfl
@[simp] theorem setPhase_waitElapsed (p : Phase) (s : State) : (setPhase p s).waitElapsed = s.waitElapsed := rfl
@[simp] theorem setPhase_tickRest (p : Phase) (s : State) : (setPhase p s).tickRest = s.tickRest := rfl
@[simp] theorem setPhase_result (p : Phase) (s : State) : (setPhase p s).result = s.result := rfl
@[simp] theorem setPhase_faults (p : Phase) (s : State) : (setPhase p s).faults = s.faults := rfl
@[simp] theorem setPhase_history (p : Phase) (s : State) : (setPhase p s).history = s.history := rfl
@[simp] theorem setPhase_qAnswer (p : Phase) (s : State) : (setPhase p s).qAnswer = s.qAnswer := rfl
@[simp] theorem setPhase_portOut (p : Phase) (s : State) : (setPhase p s).portOut = s.portOut := rfl
@[simp] theorem setPhase_params (p : Phase) (s : State) : (setPhase p s).params = s.params := rfl
@[simp] theorem setPhase_env (p : Phase) (s : State) : (setPhase p s).env = s.env := rfl
@[simp] theorem setPhase_host (p : Phase) (s : State) : (setPhase p s).host = s.host := rfl

/-! ### clearTemps -/

@[simp] theorem clearTemps_curCfg (s : State) : (clearTemps s).curCfg = s.curCfg := rfl
@[simp] theorem clearTemps_pendingCfg (s : State) : (clearTemps s).pendingCfg = s.pendingCfg := rfl
@[simp] theorem clearTemps_delayUs (s : State) : (clearTemps s).delayUs = s.delayUs := rfl
@[simp] theorem clearTemps_parEn (s : State) : (clearTemps s).parEn = s.parEn := rfl
@[simp] theorem clearTemps_parOdd (s : State) : (clearTemps s).parOdd = s.parOdd := rfl
@[simp] theorem clearTemps_txq (s : State) : (clearTemps s).txq = s.txq := rfl
@[simp] theorem clearTemps_irqPending (s : State) : (clearTemps s).irqPending = s.irqPending := rfl
@[simp] theorem clearTemps_hostReq (s : State) : (clearTemps s).hostReq = s.hostReq := rfl
@[simp] theorem clearTemps_phase (s : State) : (clearTemps s).phase = s.phase := rfl
@[simp] theorem clearTemps_tResp (s : State) : (clearTemps s).tResp = .unw := rfl
@[simp] theorem clearTemps_tByte (s : State) : (clearTemps s).tByte = .unw := rfl
@[simp] theorem clearTemps_waitElapsed (s : State) : (clearTemps s).waitElapsed = s.waitElapsed := rfl
@[simp] theorem clearTemps_tickRest (s : State) : (clearTemps s).tickRest = s.tickRest := rfl
@[simp] theorem clearTemps_result (s : State) : (clearTemps s).result = s.result := rfl
@[simp] theorem clearTemps_faults (s : State) : (clearTemps s).faults = s.faults := rfl
@[simp] theorem clearTemps_history (s : State) : (clearTemps s).history = s.history := rfl
@[simp] theorem clearTemps_qAnswer (s : State) : (clearTemps s).qAnswer = s.qAnswer := rfl
@[simp] theorem clearTemps_portOut (s : State) : (clearTemps s).portOut = s.portOut := rfl
@[simp] theorem clearTemps_params (s : State) : (clearTemps s).params = s.params := rfl
@[simp] theorem clearTemps_env (s : State) : (clearTemps s).env = s.env := rfl
@[simp] theorem clearTemps_host (s : State) : (clearTemps s).host = s.host := rfl

/-! ### endOperation -/

@[simp] theorem endOperation_curCfg (s : State) : (endOperation s).curCfg = s.curCfg := rfl
@[simp] theorem endOperation_pendingCfg (s : State) : (endOperation s).pendingCfg = s.pendingCfg := rfl
@[simp] theorem endOperation_delayUs (s : State) : (endOperation s).delayUs = s.delayUs := rfl
@[simp] theorem endOperation_parEn (s : State) : (endOperation s).parEn = s.parEn := rfl
@[simp] theorem endOperation_parOdd (s : State) : (endOperation s).parOdd = s.parOdd := rfl
@[simp] theorem endOperation_txq (s : State) : (endOperation s).txq = s.txq := rfl
@[simp] theorem endOperation_irqPending (s : State) : (endOperation s).irqPending = s.irqPending := rfl
@[simp] theorem endOperation_hostReq (s : State) : (endOperation s).hostReq = s.hostReq := rfl
@[simp] theorem endOperation_phase (s : State) : (endOperation s).phase = .idle := rfl
@[simp] theorem endOperation_tResp (s : State) : (endOperation s).tResp = .unw := rfl
@[simp] theorem endOperation_tByte (s : State) : (endOperation s).tByte = .unw := rfl
@[simp] theorem endOperation_waitElapsed (s : State) : (endOperation s).waitElapsed = s.waitElapsed := rfl
@[simp] theorem endOperation_tickRest (s : State) : (endOperation s).tickRest = s.tickRest := rfl
@[simp] theorem endOperation_result (s : State) : (endOperation s).result = s.result := rfl
@[simp] theorem endOperation_faults (s : State) : (endOperation s).faults = s.faults := rfl
@[simp] theorem endOperation_history (s : State) : (endOperation s).history = s.history := rfl
@[simp] theorem endOperation_qAnswer (s : State) : (endOperation s).qAnswer = s.qAnswer := rfl
@[simp] theorem endOperation_portOut (s : State) : (endOperation s).portOut = s.portOut := rfl
@[simp] theorem endOperation_params (s : State) : (endOperation s).params = s.params := rfl
@[simp] theorem endOperation_env (s : State) : (endOperation s).env = s.env := rfl
@[simp] theorem endOperation_host (s : State) : (endOperation s).host = s.host := rfl

/-! ### xfer -/

@[simp] theorem xfer_curCfg (w : Word) (s : State) : (xfer w s).curCfg = s.curCfg := rfl
@[simp] theorem xfer_pendingCfg (w : Word) (s : State) : (xfer w s).pendingCfg = s.pendingCfg := rfl
@[simp] theorem xfer_delayUs (w : Word) (s : State) : (xfer w s).delayUs = s.delayUs := rfl
@[simp] theorem xfer_parEn (w : Word) (s : State) : (xfer w s).parEn = s.parEn := rfl
@[simp] theorem xfer_parOdd (w : Word) (s : State) : (xfer w s).parOdd = s.parOdd := rfl
@[simp] theorem xfer_txq (w : Word) (s : State) : (xfer w s).txq = s.txq := rfl
@[simp] theorem xfer_irqPending (w : Word) (s : State) : (xfer w s).irqPending = s.irqPending := rfl
@[simp] theorem xfer_hostReq (w : Word) (s : State) : (xfer w s).hostReq = s.hostReq := rfl
@[simp] theorem xfer_phase (w : Word) (s : State) : (xfer w s).phase = s.phase := rfl
@[simp] theorem xfer_tResp (w : Word) (s : State) : (xfer w s).tResp = s.tResp := rfl
@[simp] theorem xfer_tByte (w : Word) (s : State) : (xfer w s).tByte = s.tByte := rfl
@[simp] theorem xfer_waitElapsed (w : Word) (s : State) : (xfer w s).waitElapsed = s.waitElapsed := rfl
@[simp] theorem xfer_tickRest (w : Word) (s : State) : (xfer w s).tickRest = s.tickRest := rfl
@[simp] theorem xfer_result (w : Word) (s : State) : (xfer w s).result = s.result := rfl
@[simp] theorem xfer_faults (w : Word) (s : State) : (xfer w s).faults = s.faults := rfl
@[simp] theorem xfer_history (w : Word) (s : State) : (xfer w s).history = s.history ++ [xferEvent w s.env] := rfl
@[simp] theorem xfer_qAnswer (w : Word) (s : State) : (xfer w s).qAnswer = s.qAnswer := rfl
@[simp] theorem xfer_portOut (w : Word) (s : State) : (xfer w s).portOut = s.portOut := rfl
@[simp] theorem xfer_params (w : Word) (s : State) : (xfer w s).params = s.params := rfl
@[simp] theorem xfer_env (w : Word) (s : State) : (xfer w s).env = spendAnswer s.env := rfl
@[simp] theorem xfer_host (w : Word) (s : State) : (xfer w s).host = s.host := rfl

/-! ### sendConfig -/

@[simp] theorem sendConfig_curCfg (w : Word) (s : State) : (sendConfig w s).curCfg = .val w := rfl
@[simp] theorem sendConfig_pendingCfg (w : Word) (s : State) : (sendConfig w s).pendingCfg = s.pendingCfg := rfl
@[simp] theorem sendConfig_delayUs (w : Word) (s : State) : (sendConfig w s).delayUs = s.delayUs := rfl
@[simp] theorem sendConfig_parEn (w : Word) (s : State) : (sendConfig w s).parEn = s.parEn := rfl
@[simp] theorem sendConfig_parOdd (w : Word) (s : State) : (sendConfig w s).parOdd = s.parOdd := rfl
@[simp] theorem sendConfig_txq (w : Word) (s : State) : (sendConfig w s).txq = s.txq := rfl
@[simp] theorem sendConfig_irqPending (w : Word) (s : State) : (sendConfig w s).irqPending = s.irqPending := rfl
@[simp] theorem sendConfig_hostReq (w : Word) (s : State) : (sendConfig w s).hostReq = s.hostReq := rfl
@[simp] theorem sendConfig_phase (w : Word) (s : State) : (sendConfig w s).phase = s.phase := rfl
@[simp] theorem sendConfig_tResp (w : Word) (s : State) : (sendConfig w s).tResp = s.tResp := rfl
@[simp] theorem sendConfig_tByte (w : Word) (s : State) : (sendConfig w s).tByte = s.tByte := rfl
@[simp] theorem sendConfig_waitElapsed (w : Word) (s : State) : (sendConfig w s).waitElapsed = s.waitElapsed := rfl
@[simp] theorem sendConfig_tickRest (w : Word) (s : State) : (sendConfig w s).tickRest = s.tickRest := rfl
@[simp] theorem sendConfig_result (w : Word) (s : State) : (sendConfig w s).result = s.result := rfl
@[simp] theorem sendConfig_faults (w : Word) (s : State) : (sendConfig w s).faults = s.faults := rfl
@[simp] theorem sendConfig_history (w : Word) (s : State) :
    (sendConfig w s).history = s.history ++ [xferEvent w s.env] := rfl
@[simp] theorem sendConfig_qAnswer (w : Word) (s : State) : (sendConfig w s).qAnswer = s.qAnswer := rfl
@[simp] theorem sendConfig_portOut (w : Word) (s : State) : (sendConfig w s).portOut = s.portOut := rfl
@[simp] theorem sendConfig_params (w : Word) (s : State) : (sendConfig w s).params = s.params := rfl
@[simp] theorem sendConfig_env (w : Word) (s : State) : (sendConfig w s).env = spendAnswer s.env := rfl
@[simp] theorem sendConfig_host (w : Word) (s : State) : (sendConfig w s).host = s.host := rfl

/-! ### sendAndKeep -/

@[simp] theorem sendAndKeep_curCfg (w : Word) (s : State) : (sendAndKeep w s).curCfg = s.curCfg := rfl
@[simp] theorem sendAndKeep_pendingCfg (w : Word) (s : State) : (sendAndKeep w s).pendingCfg = s.pendingCfg := rfl
@[simp] theorem sendAndKeep_delayUs (w : Word) (s : State) : (sendAndKeep w s).delayUs = s.delayUs := rfl
@[simp] theorem sendAndKeep_parEn (w : Word) (s : State) : (sendAndKeep w s).parEn = s.parEn := rfl
@[simp] theorem sendAndKeep_parOdd (w : Word) (s : State) : (sendAndKeep w s).parOdd = s.parOdd := rfl
@[simp] theorem sendAndKeep_txq (w : Word) (s : State) : (sendAndKeep w s).txq = s.txq := rfl
@[simp] theorem sendAndKeep_irqPending (w : Word) (s : State) : (sendAndKeep w s).irqPending = s.irqPending := rfl
@[simp] theorem sendAndKeep_hostReq (w : Word) (s : State) : (sendAndKeep w s).hostReq = s.hostReq := rfl
@[simp] theorem sendAndKeep_phase (w : Word) (s : State) : (sendAndKeep w s).phase = s.phase := rfl
@[simp] theorem sendAndKeep_tResp (w : Word) (s : State) : (sendAndKeep w s).tResp = .val (xferResp w s) := rfl
@[simp] theorem sendAndKeep_tByte (w : Word) (s : State) : (sendAndKeep w s).tByte = s.tByte := rfl
@[simp] theorem sendAndKeep_waitElapsed (w : Word) (s : State) : (sendAndKeep w s).waitElapsed = s.waitElapsed := rfl
@[simp] theorem sendAndKeep_tickRest (w : Word) (s : State) : (sendAndKeep w s).tickRest = s.tickRest := rfl
@[simp] theorem sendAndKeep_result (w : Word) (s : State) : (sendAndKeep w s).result = s.result := rfl
@[simp] theorem sendAndKeep_faults (w : Word) (s : State) : (sendAndKeep w s).faults = s.faults := rfl
@[simp] theorem sendAndKeep_history (w : Word) (s : State) :
    (sendAndKeep w s).history = s.history ++ [xferEvent w s.env] := rfl
@[simp] theorem sendAndKeep_qAnswer (w : Word) (s : State) : (sendAndKeep w s).qAnswer = s.qAnswer := rfl
@[simp] theorem sendAndKeep_portOut (w : Word) (s : State) : (sendAndKeep w s).portOut = s.portOut := rfl
@[simp] theorem sendAndKeep_params (w : Word) (s : State) : (sendAndKeep w s).params = s.params := rfl
@[simp] theorem sendAndKeep_env (w : Word) (s : State) : (sendAndKeep w s).env = spendAnswer s.env := rfl
@[simp] theorem sendAndKeep_host (w : Word) (s : State) : (sendAndKeep w s).host = s.host := rfl

/-! ### sendData -/

@[simp] theorem sendData_curCfg (w : Word) (s : State) : (sendData w s).curCfg = s.curCfg := rfl
@[simp] theorem sendData_pendingCfg (w : Word) (s : State) : (sendData w s).pendingCfg = s.pendingCfg := rfl
@[simp] theorem sendData_delayUs (w : Word) (s : State) : (sendData w s).delayUs = s.delayUs := rfl
@[simp] theorem sendData_parEn (w : Word) (s : State) : (sendData w s).parEn = s.parEn := rfl
@[simp] theorem sendData_parOdd (w : Word) (s : State) : (sendData w s).parOdd = s.parOdd := rfl
@[simp] theorem sendData_txq (w : Word) (s : State) : (sendData w s).txq = s.txq := rfl
@[simp] theorem sendData_irqPending (w : Word) (s : State) : (sendData w s).irqPending = s.irqPending := rfl
@[simp] theorem sendData_hostReq (w : Word) (s : State) : (sendData w s).hostReq = s.hostReq := rfl
@[simp] theorem sendData_phase (w : Word) (s : State) : (sendData w s).phase = s.phase := rfl
@[simp] theorem sendData_tResp (w : Word) (s : State) : (sendData w s).tResp = s.tResp := rfl
@[simp] theorem sendData_tByte (w : Word) (s : State) : (sendData w s).tByte = s.tByte := rfl
@[simp] theorem sendData_waitElapsed (w : Word) (s : State) : (sendData w s).waitElapsed = s.waitElapsed := rfl
@[simp] theorem sendData_tickRest (w : Word) (s : State) : (sendData w s).tickRest = s.tickRest := rfl
@[simp] theorem sendData_result (w : Word) (s : State) : (sendData w s).result = s.result := rfl
@[simp] theorem sendData_faults (w : Word) (s : State) : (sendData w s).faults = s.faults := rfl
@[simp] theorem sendData_history (w : Word) (s : State) :
    (sendData w s).history = s.history ++ [xferEvent w s.env] := rfl
@[simp] theorem sendData_qAnswer (w : Word) (s : State) : (sendData w s).qAnswer = s.qAnswer := rfl
@[simp] theorem sendData_portOut (w : Word) (s : State) : (sendData w s).portOut = s.portOut := rfl
@[simp] theorem sendData_params (w : Word) (s : State) : (sendData w s).params = s.params := rfl
@[simp] theorem sendData_env (w : Word) (s : State) : (sendData w s).env = spendAnswer s.env := rfl
@[simp] theorem sendData_host (w : Word) (s : State) : (sendData w s).host = s.host := rfl

/-! ### deq -/

@[simp] theorem deq_curCfg (s : State) : (deq s).curCfg = s.curCfg := rfl
@[simp] theorem deq_pendingCfg (s : State) : (deq s).pendingCfg = s.pendingCfg := rfl
@[simp] theorem deq_delayUs (s : State) : (deq s).delayUs = s.delayUs := rfl
@[simp] theorem deq_parEn (s : State) : (deq s).parEn = s.parEn := rfl
@[simp] theorem deq_parOdd (s : State) : (deq s).parOdd = s.parOdd := rfl
@[simp] theorem deq_txq (s : State) : (deq s).txq = s.txq.tail := rfl
@[simp] theorem deq_irqPending (s : State) : (deq s).irqPending = s.irqPending := rfl
@[simp] theorem deq_hostReq (s : State) : (deq s).hostReq = s.hostReq := rfl
@[simp] theorem deq_phase (s : State) : (deq s).phase = s.phase := rfl
@[simp] theorem deq_tResp (s : State) : (deq s).tResp = s.tResp := rfl
@[simp] theorem deq_tByte (s : State) : (deq s).tByte = s.tByte := rfl
@[simp] theorem deq_waitElapsed (s : State) : (deq s).waitElapsed = s.waitElapsed := rfl
@[simp] theorem deq_tickRest (s : State) : (deq s).tickRest = s.tickRest := rfl
@[simp] theorem deq_result (s : State) : (deq s).result = s.result := rfl
@[simp] theorem deq_faults (s : State) : (deq s).faults = s.faults := rfl
@[simp] theorem deq_history (s : State) : (deq s).history = s.history ++ [.deq s.txq.head?] := rfl
@[simp] theorem deq_qAnswer (s : State) : (deq s).qAnswer = s.qAnswer := rfl
@[simp] theorem deq_portOut (s : State) : (deq s).portOut = s.portOut := rfl
@[simp] theorem deq_params (s : State) : (deq s).params = s.params := rfl
@[simp] theorem deq_env (s : State) : (deq s).env = s.env := rfl
@[simp] theorem deq_host (s : State) : (deq s).host = s.host := rfl

/-! ### deliver -/

@[simp] theorem deliver_curCfg (b : Byte) (s : State) : (deliver b s).curCfg = s.curCfg := rfl
@[simp] theorem deliver_pendingCfg (b : Byte) (s : State) : (deliver b s).pendingCfg = s.pendingCfg := rfl
@[simp] theorem deliver_delayUs (b : Byte) (s : State) : (deliver b s).delayUs = s.delayUs := rfl
@[simp] theorem deliver_parEn (b : Byte) (s : State) : (deliver b s).parEn = s.parEn := rfl
@[simp] theorem deliver_parOdd (b : Byte) (s : State) : (deliver b s).parOdd = s.parOdd := rfl
@[simp] theorem deliver_txq (b : Byte) (s : State) : (deliver b s).txq = s.txq := rfl
@[simp] theorem deliver_irqPending (b : Byte) (s : State) : (deliver b s).irqPending = s.irqPending := rfl
@[simp] theorem deliver_hostReq (b : Byte) (s : State) : (deliver b s).hostReq = s.hostReq := rfl
@[simp] theorem deliver_phase (b : Byte) (s : State) : (deliver b s).phase = s.phase := rfl
@[simp] theorem deliver_tResp (b : Byte) (s : State) : (deliver b s).tResp = s.tResp := rfl
@[simp] theorem deliver_tByte (b : Byte) (s : State) : (deliver b s).tByte = s.tByte := rfl
@[simp] theorem deliver_waitElapsed (b : Byte) (s : State) : (deliver b s).waitElapsed = s.waitElapsed := rfl
@[simp] theorem deliver_tickRest (b : Byte) (s : State) : (deliver b s).tickRest = s.tickRest := rfl
@[simp] theorem deliver_result (b : Byte) (s : State) : (deliver b s).result = s.result := rfl
@[simp] theorem deliver_faults (b : Byte) (s : State) : (deliver b s).faults = s.faults := rfl
@[simp] theorem deliver_history (b : Byte) (s : State) : (deliver b s).history = s.history ++ [.deliver b] := rfl
@[simp] theorem deliver_qAnswer (b : Byte) (s : State) : (deliver b s).qAnswer = s.qAnswer := rfl
@[simp] theorem deliver_portOut (b : Byte) (s : State) : (deliver b s).portOut = s.portOut := rfl
@[simp] theorem deliver_params (b : Byte) (s : State) : (deliver b s).params = s.params := rfl
@[simp] theorem deliver_env (b : Byte) (s : State) : (deliver b s).env = sinkTake b s.env := rfl
@[simp] theorem deliver_host (b : Byte) (s : State) : (deliver b s).host = s.host := rfl

/-! ### beginRequest -/

@[simp] theorem beginRequest_curCfg (op : BitVec 4) (ops : Operands) (s : State) :
    (beginRequest op ops s).curCfg = s.curCfg := rfl
@[simp] theorem beginRequest_pendingCfg (op : BitVec 4) (ops : Operands) (s : State) :
    (beginRequest op ops s).pendingCfg = s.pendingCfg := rfl
@[simp] theorem beginRequest_delayUs (op : BitVec 4) (ops : Operands) (s : State) :
    (beginRequest op ops s).delayUs = s.delayUs := rfl
@[simp] theorem beginRequest_parEn (op : BitVec 4) (ops : Operands) (s : State) :
    (beginRequest op ops s).parEn = s.parEn := rfl
@[simp] theorem beginRequest_parOdd (op : BitVec 4) (ops : Operands) (s : State) :
    (beginRequest op ops s).parOdd = s.parOdd := rfl
@[simp] theorem beginRequest_txq (op : BitVec 4) (ops : Operands) (s : State) :
    (beginRequest op ops s).txq = s.txq := rfl
@[simp] theorem beginRequest_irqPending (op : BitVec 4) (ops : Operands) (s : State) :
    (beginRequest op ops s).irqPending = s.irqPending := rfl
@[simp] theorem beginRequest_hostReq (op : BitVec 4) (ops : Operands) (s : State) :
    (beginRequest op ops s).hostReq = s.hostReq := rfl
@[simp] theorem beginRequest_phase (op : BitVec 4) (ops : Operands) (s : State) :
    (beginRequest op ops s).phase = s.phase := rfl
@[simp] theorem beginRequest_tResp (op : BitVec 4) (ops : Operands) (s : State) :
    (beginRequest op ops s).tResp = s.tResp := rfl
@[simp] theorem beginRequest_tByte (op : BitVec 4) (ops : Operands) (s : State) :
    (beginRequest op ops s).tByte = s.tByte := rfl
@[simp] theorem beginRequest_waitElapsed (op : BitVec 4) (ops : Operands) (s : State) :
    (beginRequest op ops s).waitElapsed = s.waitElapsed := rfl
@[simp] theorem beginRequest_tickRest (op : BitVec 4) (ops : Operands) (s : State) :
    (beginRequest op ops s).tickRest = s.tickRest := rfl
@[simp] theorem beginRequest_result (op : BitVec 4) (ops : Operands) (s : State) :
    (beginRequest op ops s).result = s.result := rfl
@[simp] theorem beginRequest_faults (op : BitVec 4) (ops : Operands) (s : State) :
    (beginRequest op ops s).faults = s.faults := rfl
@[simp] theorem beginRequest_history (op : BitVec 4) (ops : Operands) (s : State) :
    (beginRequest op ops s).history = s.history ++ [.req op ops] := rfl
@[simp] theorem beginRequest_qAnswer (op : BitVec 4) (ops : Operands) (s : State) :
    (beginRequest op ops s).qAnswer = s.qAnswer := rfl
@[simp] theorem beginRequest_portOut (op : BitVec 4) (ops : Operands) (s : State) :
    (beginRequest op ops s).portOut = s.portOut := rfl
@[simp] theorem beginRequest_params (op : BitVec 4) (ops : Operands) (s : State) :
    (beginRequest op ops s).params = s.params := rfl
@[simp] theorem beginRequest_env (op : BitVec 4) (ops : Operands) (s : State) :
    (beginRequest op ops s).env = s.env := rfl
@[simp] theorem beginRequest_host (op : BitVec 4) (ops : Operands) (s : State) :
    (beginRequest op ops s).host = s.host := rfl

/-! ### startRequest -/

@[simp] theorem startRequest_curCfg (op : BitVec 4) (ops : Operands) (s : State) :
    (startRequest op ops s).curCfg = s.curCfg := rfl
@[simp] theorem startRequest_pendingCfg (op : BitVec 4) (ops : Operands) (s : State) :
    (startRequest op ops s).pendingCfg = s.pendingCfg := rfl
@[simp] theorem startRequest_delayUs (op : BitVec 4) (ops : Operands) (s : State) :
    (startRequest op ops s).delayUs = s.delayUs := rfl
@[simp] theorem startRequest_parEn (op : BitVec 4) (ops : Operands) (s : State) :
    (startRequest op ops s).parEn = s.parEn := rfl
@[simp] theorem startRequest_parOdd (op : BitVec 4) (ops : Operands) (s : State) :
    (startRequest op ops s).parOdd = s.parOdd := rfl
@[simp] theorem startRequest_txq (op : BitVec 4) (ops : Operands) (s : State) :
    (startRequest op ops s).txq = s.txq := rfl
@[simp] theorem startRequest_irqPending (op : BitVec 4) (ops : Operands) (s : State) :
    (startRequest op ops s).irqPending = s.irqPending := rfl
@[simp] theorem startRequest_hostReq (op : BitVec 4) (ops : Operands) (s : State) :
    (startRequest op ops s).hostReq = s.hostReq := rfl
@[simp] theorem startRequest_phase (op : BitVec 4) (ops : Operands) (s : State) :
    (startRequest op ops s).phase = s.phase := rfl
@[simp] theorem startRequest_tResp (op : BitVec 4) (ops : Operands) (s : State) :
    (startRequest op ops s).tResp = .unw := rfl
@[simp] theorem startRequest_tByte (op : BitVec 4) (ops : Operands) (s : State) :
    (startRequest op ops s).tByte = .unw := rfl
@[simp] theorem startRequest_waitElapsed (op : BitVec 4) (ops : Operands) (s : State) :
    (startRequest op ops s).waitElapsed = s.waitElapsed := rfl
@[simp] theorem startRequest_tickRest (op : BitVec 4) (ops : Operands) (s : State) :
    (startRequest op ops s).tickRest = s.tickRest := rfl
@[simp] theorem startRequest_result (op : BitVec 4) (ops : Operands) (s : State) :
    (startRequest op ops s).result = s.result := rfl
@[simp] theorem startRequest_faults (op : BitVec 4) (ops : Operands) (s : State) :
    (startRequest op ops s).faults = s.faults := rfl
@[simp] theorem startRequest_history (op : BitVec 4) (ops : Operands) (s : State) :
    (startRequest op ops s).history = s.history ++ [.req op ops] := rfl
@[simp] theorem startRequest_qAnswer (op : BitVec 4) (ops : Operands) (s : State) :
    (startRequest op ops s).qAnswer = s.qAnswer := rfl
@[simp] theorem startRequest_portOut (op : BitVec 4) (ops : Operands) (s : State) :
    (startRequest op ops s).portOut = s.portOut := rfl
@[simp] theorem startRequest_params (op : BitVec 4) (ops : Operands) (s : State) :
    (startRequest op ops s).params = s.params := rfl
@[simp] theorem startRequest_env (op : BitVec 4) (ops : Operands) (s : State) :
    (startRequest op ops s).env = s.env := rfl
@[simp] theorem startRequest_host (op : BitVec 4) (ops : Operands) (s : State) :
    (startRequest op ops s).host = s.host := rfl

/-! ### finish -/

@[simp] theorem finish_curCfg (op : BitVec 4) (r : Result) (s : State) : (finish op r s).curCfg = s.curCfg := rfl
@[simp] theorem finish_pendingCfg (op : BitVec 4) (r : Result) (s : State) :
    (finish op r s).pendingCfg = s.pendingCfg := rfl
@[simp] theorem finish_delayUs (op : BitVec 4) (r : Result) (s : State) : (finish op r s).delayUs = s.delayUs := rfl
@[simp] theorem finish_parEn (op : BitVec 4) (r : Result) (s : State) : (finish op r s).parEn = s.parEn := rfl
@[simp] theorem finish_parOdd (op : BitVec 4) (r : Result) (s : State) : (finish op r s).parOdd = s.parOdd := rfl
@[simp] theorem finish_txq (op : BitVec 4) (r : Result) (s : State) : (finish op r s).txq = s.txq := rfl
@[simp] theorem finish_irqPending (op : BitVec 4) (r : Result) (s : State) :
    (finish op r s).irqPending = s.irqPending := rfl
@[simp] theorem finish_hostReq (op : BitVec 4) (r : Result) (s : State) : (finish op r s).hostReq = s.hostReq := rfl
@[simp] theorem finish_phase (op : BitVec 4) (r : Result) (s : State) : (finish op r s).phase = .idle := rfl
@[simp] theorem finish_tResp (op : BitVec 4) (r : Result) (s : State) : (finish op r s).tResp = s.tResp := rfl
@[simp] theorem finish_tByte (op : BitVec 4) (r : Result) (s : State) : (finish op r s).tByte = s.tByte := rfl
@[simp] theorem finish_waitElapsed (op : BitVec 4) (r : Result) (s : State) :
    (finish op r s).waitElapsed = s.waitElapsed := rfl
@[simp] theorem finish_tickRest (op : BitVec 4) (r : Result) (s : State) : (finish op r s).tickRest = s.tickRest := rfl
@[simp] theorem finish_result (op : BitVec 4) (r : Result) (s : State) : (finish op r s).result = some r := rfl
@[simp] theorem finish_faults (op : BitVec 4) (r : Result) (s : State) : (finish op r s).faults = s.faults := rfl
@[simp] theorem finish_history (op : BitVec 4) (r : Result) (s : State) :
    (finish op r s).history = s.history ++ [.done op r] := rfl
@[simp] theorem finish_qAnswer (op : BitVec 4) (r : Result) (s : State) : (finish op r s).qAnswer = s.qAnswer := rfl
@[simp] theorem finish_portOut (op : BitVec 4) (r : Result) (s : State) : (finish op r s).portOut = s.portOut := rfl
@[simp] theorem finish_params (op : BitVec 4) (r : Result) (s : State) : (finish op r s).params = s.params := rfl
@[simp] theorem finish_env (op : BitVec 4) (r : Result) (s : State) : (finish op r s).env = s.env := rfl
@[simp] theorem finish_host (op : BitVec 4) (r : Result) (s : State) : (finish op r s).host = s.host := rfl

/-! ### complete -/

@[simp] theorem complete_curCfg (op : BitVec 4) (r : Result) (s : State) : (complete op r s).curCfg = s.curCfg := rfl
@[simp] theorem complete_pendingCfg (op : BitVec 4) (r : Result) (s : State) :
    (complete op r s).pendingCfg = s.pendingCfg := rfl
@[simp] theorem complete_delayUs (op : BitVec 4) (r : Result) (s : State) : (complete op r s).delayUs = s.delayUs := rfl
@[simp] theorem complete_parEn (op : BitVec 4) (r : Result) (s : State) : (complete op r s).parEn = s.parEn := rfl
@[simp] theorem complete_parOdd (op : BitVec 4) (r : Result) (s : State) : (complete op r s).parOdd = s.parOdd := rfl
@[simp] theorem complete_txq (op : BitVec 4) (r : Result) (s : State) : (complete op r s).txq = s.txq := rfl
@[simp] theorem complete_irqPending (op : BitVec 4) (r : Result) (s : State) :
    (complete op r s).irqPending = s.irqPending := rfl
@[simp] theorem complete_hostReq (op : BitVec 4) (r : Result) (s : State) : (complete op r s).hostReq = s.hostReq := rfl
@[simp] theorem complete_phase (op : BitVec 4) (r : Result) (s : State) : (complete op r s).phase = .idle := rfl
@[simp] theorem complete_tResp (op : BitVec 4) (r : Result) (s : State) : (complete op r s).tResp = .unw := rfl
@[simp] theorem complete_tByte (op : BitVec 4) (r : Result) (s : State) : (complete op r s).tByte = .unw := rfl
@[simp] theorem complete_waitElapsed (op : BitVec 4) (r : Result) (s : State) :
    (complete op r s).waitElapsed = s.waitElapsed := rfl
@[simp] theorem complete_tickRest (op : BitVec 4) (r : Result) (s : State) :
    (complete op r s).tickRest = s.tickRest := rfl
@[simp] theorem complete_result (op : BitVec 4) (r : Result) (s : State) : (complete op r s).result = some r := rfl
@[simp] theorem complete_faults (op : BitVec 4) (r : Result) (s : State) : (complete op r s).faults = s.faults := rfl
@[simp] theorem complete_history (op : BitVec 4) (r : Result) (s : State) :
    (complete op r s).history = s.history ++ [.done op r] := rfl
@[simp] theorem complete_qAnswer (op : BitVec 4) (r : Result) (s : State) : (complete op r s).qAnswer = s.qAnswer := rfl
@[simp] theorem complete_portOut (op : BitVec 4) (r : Result) (s : State) : (complete op r s).portOut = s.portOut := rfl
@[simp] theorem complete_params (op : BitVec 4) (r : Result) (s : State) : (complete op r s).params = s.params := rfl
@[simp] theorem complete_env (op : BitVec 4) (r : Result) (s : State) : (complete op r s).env = s.env := rfl
@[simp] theorem complete_host (op : BitVec 4) (r : Result) (s : State) : (complete op r s).host = s.host := rfl

/-! ### raise -/

@[simp] theorem raise_curCfg (k : FaultKind) (op : BitVec 4) (s : State) : (raise k op s).curCfg = s.curCfg := rfl
@[simp] theorem raise_pendingCfg (k : FaultKind) (op : BitVec 4) (s : State) :
    (raise k op s).pendingCfg = s.pendingCfg := rfl
@[simp] theorem raise_delayUs (k : FaultKind) (op : BitVec 4) (s : State) : (raise k op s).delayUs = s.delayUs := rfl
@[simp] theorem raise_parEn (k : FaultKind) (op : BitVec 4) (s : State) : (raise k op s).parEn = s.parEn := rfl
@[simp] theorem raise_parOdd (k : FaultKind) (op : BitVec 4) (s : State) : (raise k op s).parOdd = s.parOdd := rfl
@[simp] theorem raise_txq (k : FaultKind) (op : BitVec 4) (s : State) : (raise k op s).txq = s.txq := rfl
@[simp] theorem raise_irqPending (k : FaultKind) (op : BitVec 4) (s : State) :
    (raise k op s).irqPending = s.irqPending := rfl
@[simp] theorem raise_hostReq (k : FaultKind) (op : BitVec 4) (s : State) : (raise k op s).hostReq = s.hostReq := rfl
@[simp] theorem raise_phase (k : FaultKind) (op : BitVec 4) (s : State) : (raise k op s).phase = s.phase := rfl
@[simp] theorem raise_tResp (k : FaultKind) (op : BitVec 4) (s : State) : (raise k op s).tResp = s.tResp := rfl
@[simp] theorem raise_tByte (k : FaultKind) (op : BitVec 4) (s : State) : (raise k op s).tByte = s.tByte := rfl
@[simp] theorem raise_waitElapsed (k : FaultKind) (op : BitVec 4) (s : State) :
    (raise k op s).waitElapsed = s.waitElapsed := rfl
@[simp] theorem raise_tickRest (k : FaultKind) (op : BitVec 4) (s : State) : (raise k op s).tickRest = s.tickRest := rfl
@[simp] theorem raise_result (k : FaultKind) (op : BitVec 4) (s : State) : (raise k op s).result = s.result := rfl
@[simp] theorem raise_faults (k : FaultKind) (op : BitVec 4) (s : State) :
    (raise k op s).faults = insertFault ⟨k, s.phase, op⟩ s.faults := rfl
@[simp] theorem raise_history (k : FaultKind) (op : BitVec 4) (s : State) :
    (raise k op s).history = s.history ++ [.fault k] := rfl
@[simp] theorem raise_qAnswer (k : FaultKind) (op : BitVec 4) (s : State) : (raise k op s).qAnswer = s.qAnswer := rfl
@[simp] theorem raise_portOut (k : FaultKind) (op : BitVec 4) (s : State) : (raise k op s).portOut = s.portOut := rfl
@[simp] theorem raise_params (k : FaultKind) (op : BitVec 4) (s : State) : (raise k op s).params = s.params := rfl
@[simp] theorem raise_env (k : FaultKind) (op : BitVec 4) (s : State) : (raise k op s).env = s.env := rfl
@[simp] theorem raise_host (k : FaultKind) (op : BitVec 4) (s : State) : (raise k op s).host = s.host := rfl

/-! ### irqEdge -/

@[simp] theorem irqEdge_curCfg (s : State) : (irqEdge s).curCfg = s.curCfg := rfl
@[simp] theorem irqEdge_pendingCfg (s : State) : (irqEdge s).pendingCfg = s.pendingCfg := rfl
@[simp] theorem irqEdge_delayUs (s : State) : (irqEdge s).delayUs = s.delayUs := rfl
@[simp] theorem irqEdge_parEn (s : State) : (irqEdge s).parEn = s.parEn := rfl
@[simp] theorem irqEdge_parOdd (s : State) : (irqEdge s).parOdd = s.parOdd := rfl
@[simp] theorem irqEdge_txq (s : State) : (irqEdge s).txq = s.txq := rfl
@[simp] theorem irqEdge_irqPending (s : State) : (irqEdge s).irqPending = true := rfl
@[simp] theorem irqEdge_hostReq (s : State) : (irqEdge s).hostReq = s.hostReq := rfl
@[simp] theorem irqEdge_phase (s : State) : (irqEdge s).phase = s.phase := rfl
@[simp] theorem irqEdge_tResp (s : State) : (irqEdge s).tResp = s.tResp := rfl
@[simp] theorem irqEdge_tByte (s : State) : (irqEdge s).tByte = s.tByte := rfl
@[simp] theorem irqEdge_waitElapsed (s : State) : (irqEdge s).waitElapsed = s.waitElapsed := rfl
@[simp] theorem irqEdge_tickRest (s : State) : (irqEdge s).tickRest = s.tickRest := rfl
@[simp] theorem irqEdge_result (s : State) : (irqEdge s).result = s.result := rfl
@[simp] theorem irqEdge_faults (s : State) : (irqEdge s).faults = s.faults := rfl
@[simp] theorem irqEdge_history (s : State) : (irqEdge s).history = s.history ++ [.irqEdge] := rfl
@[simp] theorem irqEdge_qAnswer (s : State) : (irqEdge s).qAnswer = s.qAnswer := rfl
@[simp] theorem irqEdge_portOut (s : State) : (irqEdge s).portOut = s.portOut := rfl
@[simp] theorem irqEdge_params (s : State) : (irqEdge s).params = s.params := rfl
@[simp] theorem irqEdge_env (s : State) : (irqEdge s).env = s.env := rfl
@[simp] theorem irqEdge_host (s : State) : (irqEdge s).host = s.host := rfl

/-! ### enterDispatch -/

@[simp] theorem enterDispatch_curCfg (s : State) : (enterDispatch s).curCfg = s.curCfg := rfl
@[simp] theorem enterDispatch_pendingCfg (s : State) : (enterDispatch s).pendingCfg = s.pendingCfg := rfl
@[simp] theorem enterDispatch_delayUs (s : State) : (enterDispatch s).delayUs = s.delayUs := rfl
@[simp] theorem enterDispatch_parEn (s : State) : (enterDispatch s).parEn = s.parEn := rfl
@[simp] theorem enterDispatch_parOdd (s : State) : (enterDispatch s).parOdd = s.parOdd := rfl
@[simp] theorem enterDispatch_txq (s : State) : (enterDispatch s).txq = s.txq := rfl
@[simp] theorem enterDispatch_irqPending (s : State) : (enterDispatch s).irqPending = false := rfl
@[simp] theorem enterDispatch_hostReq (s : State) : (enterDispatch s).hostReq = s.hostReq := rfl
@[simp] theorem enterDispatch_phase (s : State) : (enterDispatch s).phase = .dispProbe := rfl
@[simp] theorem enterDispatch_tResp (s : State) : (enterDispatch s).tResp = .unw := rfl
@[simp] theorem enterDispatch_tByte (s : State) : (enterDispatch s).tByte = .unw := rfl
@[simp] theorem enterDispatch_waitElapsed (s : State) : (enterDispatch s).waitElapsed = s.waitElapsed := rfl
@[simp] theorem enterDispatch_tickRest (s : State) : (enterDispatch s).tickRest = s.tickRest := rfl
@[simp] theorem enterDispatch_result (s : State) : (enterDispatch s).result = s.result := rfl
@[simp] theorem enterDispatch_faults (s : State) : (enterDispatch s).faults = s.faults := rfl
@[simp] theorem enterDispatch_history (s : State) : (enterDispatch s).history = s.history := rfl
@[simp] theorem enterDispatch_qAnswer (s : State) : (enterDispatch s).qAnswer = s.qAnswer := rfl
@[simp] theorem enterDispatch_portOut (s : State) : (enterDispatch s).portOut = s.portOut := rfl
@[simp] theorem enterDispatch_params (s : State) : (enterDispatch s).params = s.params := rfl
@[simp] theorem enterDispatch_env (s : State) : (enterDispatch s).env = s.env := rfl
@[simp] theorem enterDispatch_host (s : State) : (enterDispatch s).host = s.host := rfl

/-! ### setScript -/

@[simp] theorem setScript_curCfg (c : List HostCmd) (s : State) : (setScript c s).curCfg = s.curCfg := rfl
@[simp] theorem setScript_pendingCfg (c : List HostCmd) (s : State) : (setScript c s).pendingCfg = s.pendingCfg := rfl
@[simp] theorem setScript_delayUs (c : List HostCmd) (s : State) : (setScript c s).delayUs = s.delayUs := rfl
@[simp] theorem setScript_parEn (c : List HostCmd) (s : State) : (setScript c s).parEn = s.parEn := rfl
@[simp] theorem setScript_parOdd (c : List HostCmd) (s : State) : (setScript c s).parOdd = s.parOdd := rfl
@[simp] theorem setScript_txq (c : List HostCmd) (s : State) : (setScript c s).txq = s.txq := rfl
@[simp] theorem setScript_irqPending (c : List HostCmd) (s : State) : (setScript c s).irqPending = s.irqPending := rfl
@[simp] theorem setScript_hostReq (c : List HostCmd) (s : State) : (setScript c s).hostReq = s.hostReq := rfl
@[simp] theorem setScript_phase (c : List HostCmd) (s : State) : (setScript c s).phase = s.phase := rfl
@[simp] theorem setScript_tResp (c : List HostCmd) (s : State) : (setScript c s).tResp = s.tResp := rfl
@[simp] theorem setScript_tByte (c : List HostCmd) (s : State) : (setScript c s).tByte = s.tByte := rfl
@[simp] theorem setScript_waitElapsed (c : List HostCmd) (s : State) :
    (setScript c s).waitElapsed = s.waitElapsed := rfl
@[simp] theorem setScript_tickRest (c : List HostCmd) (s : State) : (setScript c s).tickRest = s.tickRest := rfl
@[simp] theorem setScript_result (c : List HostCmd) (s : State) : (setScript c s).result = s.result := rfl
@[simp] theorem setScript_faults (c : List HostCmd) (s : State) : (setScript c s).faults = s.faults := rfl
@[simp] theorem setScript_history (c : List HostCmd) (s : State) : (setScript c s).history = s.history := rfl
@[simp] theorem setScript_qAnswer (c : List HostCmd) (s : State) : (setScript c s).qAnswer = s.qAnswer := rfl
@[simp] theorem setScript_portOut (c : List HostCmd) (s : State) : (setScript c s).portOut = s.portOut := rfl
@[simp] theorem setScript_params (c : List HostCmd) (s : State) : (setScript c s).params = s.params := rfl
@[simp] theorem setScript_env (c : List HostCmd) (s : State) : (setScript c s).env = s.env := rfl
@[simp] theorem setScript_host (c : List HostCmd) (s : State) :
    (setScript c s).host = { s.host with script := c } := rfl

/-! ### doFirst -/

@[simp] theorem doFirst_curCfg (c : List HostCmd) (s : State) : (doFirst c s).curCfg = s.curCfg := rfl
@[simp] theorem doFirst_pendingCfg (c : List HostCmd) (s : State) : (doFirst c s).pendingCfg = s.pendingCfg := rfl
@[simp] theorem doFirst_delayUs (c : List HostCmd) (s : State) : (doFirst c s).delayUs = s.delayUs := rfl
@[simp] theorem doFirst_parEn (c : List HostCmd) (s : State) : (doFirst c s).parEn = s.parEn := rfl
@[simp] theorem doFirst_parOdd (c : List HostCmd) (s : State) : (doFirst c s).parOdd = s.parOdd := rfl
@[simp] theorem doFirst_txq (c : List HostCmd) (s : State) : (doFirst c s).txq = s.txq := rfl
@[simp] theorem doFirst_irqPending (c : List HostCmd) (s : State) : (doFirst c s).irqPending = s.irqPending := rfl
@[simp] theorem doFirst_hostReq (c : List HostCmd) (s : State) : (doFirst c s).hostReq = s.hostReq := rfl
@[simp] theorem doFirst_phase (c : List HostCmd) (s : State) : (doFirst c s).phase = s.phase := rfl
@[simp] theorem doFirst_tResp (c : List HostCmd) (s : State) : (doFirst c s).tResp = s.tResp := rfl
@[simp] theorem doFirst_tByte (c : List HostCmd) (s : State) : (doFirst c s).tByte = s.tByte := rfl
@[simp] theorem doFirst_waitElapsed (c : List HostCmd) (s : State) : (doFirst c s).waitElapsed = s.waitElapsed := rfl
@[simp] theorem doFirst_tickRest (c : List HostCmd) (s : State) : (doFirst c s).tickRest = s.tickRest := rfl
@[simp] theorem doFirst_result (c : List HostCmd) (s : State) : (doFirst c s).result = s.result := rfl
@[simp] theorem doFirst_faults (c : List HostCmd) (s : State) : (doFirst c s).faults = s.faults := rfl
@[simp] theorem doFirst_history (c : List HostCmd) (s : State) : (doFirst c s).history = s.history := rfl
@[simp] theorem doFirst_qAnswer (c : List HostCmd) (s : State) : (doFirst c s).qAnswer = s.qAnswer := rfl
@[simp] theorem doFirst_portOut (c : List HostCmd) (s : State) : (doFirst c s).portOut = s.portOut := rfl
@[simp] theorem doFirst_params (c : List HostCmd) (s : State) : (doFirst c s).params = s.params := rfl
@[simp] theorem doFirst_env (c : List HostCmd) (s : State) : (doFirst c s).env = s.env := rfl
@[simp] theorem doFirst_host (c : List HostCmd) (s : State) :
    (doFirst c s).host = { s.host with current := c ++ s.host.current } := rfl

/-! ### addAnswer -/

@[simp] theorem addAnswer_curCfg (a : Answer) (s : State) : (addAnswer a s).curCfg = s.curCfg := rfl
@[simp] theorem addAnswer_pendingCfg (a : Answer) (s : State) : (addAnswer a s).pendingCfg = s.pendingCfg := rfl
@[simp] theorem addAnswer_delayUs (a : Answer) (s : State) : (addAnswer a s).delayUs = s.delayUs := rfl
@[simp] theorem addAnswer_parEn (a : Answer) (s : State) : (addAnswer a s).parEn = s.parEn := rfl
@[simp] theorem addAnswer_parOdd (a : Answer) (s : State) : (addAnswer a s).parOdd = s.parOdd := rfl
@[simp] theorem addAnswer_txq (a : Answer) (s : State) : (addAnswer a s).txq = s.txq := rfl
@[simp] theorem addAnswer_irqPending (a : Answer) (s : State) : (addAnswer a s).irqPending = s.irqPending := rfl
@[simp] theorem addAnswer_hostReq (a : Answer) (s : State) : (addAnswer a s).hostReq = s.hostReq := rfl
@[simp] theorem addAnswer_phase (a : Answer) (s : State) : (addAnswer a s).phase = s.phase := rfl
@[simp] theorem addAnswer_tResp (a : Answer) (s : State) : (addAnswer a s).tResp = s.tResp := rfl
@[simp] theorem addAnswer_tByte (a : Answer) (s : State) : (addAnswer a s).tByte = s.tByte := rfl
@[simp] theorem addAnswer_waitElapsed (a : Answer) (s : State) : (addAnswer a s).waitElapsed = s.waitElapsed := rfl
@[simp] theorem addAnswer_tickRest (a : Answer) (s : State) : (addAnswer a s).tickRest = s.tickRest := rfl
@[simp] theorem addAnswer_result (a : Answer) (s : State) : (addAnswer a s).result = s.result := rfl
@[simp] theorem addAnswer_faults (a : Answer) (s : State) : (addAnswer a s).faults = s.faults := rfl
@[simp] theorem addAnswer_history (a : Answer) (s : State) : (addAnswer a s).history = s.history := rfl
@[simp] theorem addAnswer_qAnswer (a : Answer) (s : State) : (addAnswer a s).qAnswer = s.qAnswer := rfl
@[simp] theorem addAnswer_portOut (a : Answer) (s : State) : (addAnswer a s).portOut = s.portOut := rfl
@[simp] theorem addAnswer_params (a : Answer) (s : State) : (addAnswer a s).params = s.params := rfl
@[simp] theorem addAnswer_env (a : Answer) (s : State) :
    (addAnswer a s).env = { s.env with answers := s.env.answers ++ [a] } := rfl
@[simp] theorem addAnswer_host (a : Answer) (s : State) : (addAnswer a s).host = s.host := rfl

/-! ### setNextDraw -/

@[simp] theorem setNextDraw_curCfg (k : Bool) (s : State) : (setNextDraw k s).curCfg = s.curCfg := rfl
@[simp] theorem setNextDraw_pendingCfg (k : Bool) (s : State) : (setNextDraw k s).pendingCfg = s.pendingCfg := rfl
@[simp] theorem setNextDraw_delayUs (k : Bool) (s : State) : (setNextDraw k s).delayUs = s.delayUs := rfl
@[simp] theorem setNextDraw_parEn (k : Bool) (s : State) : (setNextDraw k s).parEn = s.parEn := rfl
@[simp] theorem setNextDraw_parOdd (k : Bool) (s : State) : (setNextDraw k s).parOdd = s.parOdd := rfl
@[simp] theorem setNextDraw_txq (k : Bool) (s : State) : (setNextDraw k s).txq = s.txq := rfl
@[simp] theorem setNextDraw_irqPending (k : Bool) (s : State) : (setNextDraw k s).irqPending = s.irqPending := rfl
@[simp] theorem setNextDraw_hostReq (k : Bool) (s : State) : (setNextDraw k s).hostReq = s.hostReq := rfl
@[simp] theorem setNextDraw_phase (k : Bool) (s : State) : (setNextDraw k s).phase = s.phase := rfl
@[simp] theorem setNextDraw_tResp (k : Bool) (s : State) : (setNextDraw k s).tResp = s.tResp := rfl
@[simp] theorem setNextDraw_tByte (k : Bool) (s : State) : (setNextDraw k s).tByte = s.tByte := rfl
@[simp] theorem setNextDraw_waitElapsed (k : Bool) (s : State) : (setNextDraw k s).waitElapsed = s.waitElapsed := rfl
@[simp] theorem setNextDraw_tickRest (k : Bool) (s : State) : (setNextDraw k s).tickRest = s.tickRest := rfl
@[simp] theorem setNextDraw_result (k : Bool) (s : State) : (setNextDraw k s).result = s.result := rfl
@[simp] theorem setNextDraw_faults (k : Bool) (s : State) : (setNextDraw k s).faults = s.faults := rfl
@[simp] theorem setNextDraw_history (k : Bool) (s : State) : (setNextDraw k s).history = s.history := rfl
@[simp] theorem setNextDraw_qAnswer (k : Bool) (s : State) : (setNextDraw k s).qAnswer = s.qAnswer := rfl
@[simp] theorem setNextDraw_portOut (k : Bool) (s : State) : (setNextDraw k s).portOut = s.portOut := rfl
@[simp] theorem setNextDraw_params (k : Bool) (s : State) : (setNextDraw k s).params = s.params := rfl
@[simp] theorem setNextDraw_env (k : Bool) (s : State) :
    (setNextDraw k s).env = { s.env with sinkDraws := k :: s.env.sinkDraws.tail } := rfl
@[simp] theorem setNextDraw_host (k : Bool) (s : State) : (setNextDraw k s).host = s.host := rfl

/-! ### issue -/

@[simp] theorem issue_curCfg (r : Request) (s : State) : (issue r s).curCfg = s.curCfg := rfl
@[simp] theorem issue_pendingCfg (r : Request) (s : State) : (issue r s).pendingCfg = s.pendingCfg := rfl
@[simp] theorem issue_delayUs (r : Request) (s : State) : (issue r s).delayUs = s.delayUs := rfl
@[simp] theorem issue_parEn (r : Request) (s : State) : (issue r s).parEn = s.parEn := rfl
@[simp] theorem issue_parOdd (r : Request) (s : State) : (issue r s).parOdd = s.parOdd := rfl
@[simp] theorem issue_txq (r : Request) (s : State) : (issue r s).txq = s.txq := rfl
@[simp] theorem issue_irqPending (r : Request) (s : State) : (issue r s).irqPending = s.irqPending := rfl
@[simp] theorem issue_hostReq (r : Request) (s : State) : (issue r s).hostReq = some r := rfl
@[simp] theorem issue_phase (r : Request) (s : State) : (issue r s).phase = s.phase := rfl
@[simp] theorem issue_tResp (r : Request) (s : State) : (issue r s).tResp = s.tResp := rfl
@[simp] theorem issue_tByte (r : Request) (s : State) : (issue r s).tByte = s.tByte := rfl
@[simp] theorem issue_waitElapsed (r : Request) (s : State) : (issue r s).waitElapsed = s.waitElapsed := rfl
@[simp] theorem issue_tickRest (r : Request) (s : State) : (issue r s).tickRest = s.tickRest := rfl
@[simp] theorem issue_result (r : Request) (s : State) : (issue r s).result = s.result := rfl
@[simp] theorem issue_faults (r : Request) (s : State) : (issue r s).faults = s.faults := rfl
@[simp] theorem issue_history (r : Request) (s : State) : (issue r s).history = s.history := rfl
@[simp] theorem issue_qAnswer (r : Request) (s : State) : (issue r s).qAnswer = s.qAnswer := rfl
@[simp] theorem issue_portOut (r : Request) (s : State) : (issue r s).portOut = s.portOut := rfl
@[simp] theorem issue_params (r : Request) (s : State) : (issue r s).params = s.params := rfl
@[simp] theorem issue_env (r : Request) (s : State) : (issue r s).env = s.env := rfl
@[simp] theorem issue_host (r : Request) (s : State) : (issue r s).host = s.host := rfl

/-! ### reply -/

@[simp] theorem reply_curCfg (a : HostReply) (s : State) : (reply a s).curCfg = s.curCfg := rfl
@[simp] theorem reply_pendingCfg (a : HostReply) (s : State) : (reply a s).pendingCfg = s.pendingCfg := rfl
@[simp] theorem reply_delayUs (a : HostReply) (s : State) : (reply a s).delayUs = s.delayUs := rfl
@[simp] theorem reply_parEn (a : HostReply) (s : State) : (reply a s).parEn = s.parEn := rfl
@[simp] theorem reply_parOdd (a : HostReply) (s : State) : (reply a s).parOdd = s.parOdd := rfl
@[simp] theorem reply_txq (a : HostReply) (s : State) : (reply a s).txq = s.txq := rfl
@[simp] theorem reply_irqPending (a : HostReply) (s : State) : (reply a s).irqPending = s.irqPending := rfl
@[simp] theorem reply_hostReq (a : HostReply) (s : State) : (reply a s).hostReq = s.hostReq := rfl
@[simp] theorem reply_phase (a : HostReply) (s : State) : (reply a s).phase = s.phase := rfl
@[simp] theorem reply_tResp (a : HostReply) (s : State) : (reply a s).tResp = s.tResp := rfl
@[simp] theorem reply_tByte (a : HostReply) (s : State) : (reply a s).tByte = s.tByte := rfl
@[simp] theorem reply_waitElapsed (a : HostReply) (s : State) : (reply a s).waitElapsed = s.waitElapsed := rfl
@[simp] theorem reply_tickRest (a : HostReply) (s : State) : (reply a s).tickRest = s.tickRest := rfl
@[simp] theorem reply_result (a : HostReply) (s : State) : (reply a s).result = s.result := rfl
@[simp] theorem reply_faults (a : HostReply) (s : State) : (reply a s).faults = s.faults := rfl
@[simp] theorem reply_history (a : HostReply) (s : State) : (reply a s).history = s.history := rfl
@[simp] theorem reply_qAnswer (a : HostReply) (s : State) : (reply a s).qAnswer = s.qAnswer := rfl
@[simp] theorem reply_portOut (a : HostReply) (s : State) : (reply a s).portOut = s.portOut := rfl
@[simp] theorem reply_params (a : HostReply) (s : State) : (reply a s).params = s.params := rfl
@[simp] theorem reply_env (a : HostReply) (s : State) : (reply a s).env = s.env := rfl
@[simp] theorem reply_host (a : HostReply) (s : State) :
    (reply a s).host = { s.host with replies := s.host.replies ++ [a] } := rfl

/-! ### setSession -/

@[simp] theorem setSession_curCfg (b : Bool) (s : State) : (setSession b s).curCfg = s.curCfg := rfl
@[simp] theorem setSession_pendingCfg (b : Bool) (s : State) : (setSession b s).pendingCfg = s.pendingCfg := rfl
@[simp] theorem setSession_delayUs (b : Bool) (s : State) : (setSession b s).delayUs = s.delayUs := rfl
@[simp] theorem setSession_parEn (b : Bool) (s : State) : (setSession b s).parEn = s.parEn := rfl
@[simp] theorem setSession_parOdd (b : Bool) (s : State) : (setSession b s).parOdd = s.parOdd := rfl
@[simp] theorem setSession_txq (b : Bool) (s : State) : (setSession b s).txq = s.txq := rfl
@[simp] theorem setSession_irqPending (b : Bool) (s : State) : (setSession b s).irqPending = s.irqPending := rfl
@[simp] theorem setSession_hostReq (b : Bool) (s : State) : (setSession b s).hostReq = s.hostReq := rfl
@[simp] theorem setSession_phase (b : Bool) (s : State) : (setSession b s).phase = s.phase := rfl
@[simp] theorem setSession_tResp (b : Bool) (s : State) : (setSession b s).tResp = s.tResp := rfl
@[simp] theorem setSession_tByte (b : Bool) (s : State) : (setSession b s).tByte = s.tByte := rfl
@[simp] theorem setSession_waitElapsed (b : Bool) (s : State) : (setSession b s).waitElapsed = s.waitElapsed := rfl
@[simp] theorem setSession_tickRest (b : Bool) (s : State) : (setSession b s).tickRest = s.tickRest := rfl
@[simp] theorem setSession_result (b : Bool) (s : State) : (setSession b s).result = s.result := rfl
@[simp] theorem setSession_faults (b : Bool) (s : State) : (setSession b s).faults = s.faults := rfl
@[simp] theorem setSession_history (b : Bool) (s : State) : (setSession b s).history = s.history := rfl
@[simp] theorem setSession_qAnswer (b : Bool) (s : State) : (setSession b s).qAnswer = s.qAnswer := rfl
@[simp] theorem setSession_portOut (b : Bool) (s : State) : (setSession b s).portOut = s.portOut := rfl
@[simp] theorem setSession_params (b : Bool) (s : State) : (setSession b s).params = s.params := rfl
@[simp] theorem setSession_env (b : Bool) (s : State) : (setSession b s).env = s.env := rfl
@[simp] theorem setSession_host (b : Bool) (s : State) : (setSession b s).host = { s.host with session := b } := rfl

/-! ### applyRegs -/

@[simp] theorem applyRegs_curCfg (baud : BitVec 32) (d7 st2 : BitVec 1) (m : ParMode) (s : State) :
    (applyRegs baud d7 st2 m s).curCfg = s.curCfg := rfl
@[simp] theorem applyRegs_pendingCfg (baud : BitVec 32) (d7 st2 : BitVec 1) (m : ParMode) (s : State) :
    (applyRegs baud d7 st2 m s).pendingCfg = .val (configWord s.params baud d7 st2 m) := rfl
@[simp] theorem applyRegs_delayUs (baud : BitVec 32) (d7 st2 : BitVec 1) (m : ParMode) (s : State) :
    (applyRegs baud d7 st2 m s).delayUs = .val (delayOfBaud s.params baud) := rfl
@[simp] theorem applyRegs_parEn (baud : BitVec 32) (d7 st2 : BitVec 1) (m : ParMode) (s : State) :
    (applyRegs baud d7 st2 m s).parEn = .val (parEnOf m) := rfl
@[simp] theorem applyRegs_parOdd (baud : BitVec 32) (d7 st2 : BitVec 1) (m : ParMode) (s : State) :
    (applyRegs baud d7 st2 m s).parOdd = .val (parOddOf m) := rfl
@[simp] theorem applyRegs_txq (baud : BitVec 32) (d7 st2 : BitVec 1) (m : ParMode) (s : State) :
    (applyRegs baud d7 st2 m s).txq = s.txq := rfl
@[simp] theorem applyRegs_irqPending (baud : BitVec 32) (d7 st2 : BitVec 1) (m : ParMode) (s : State) :
    (applyRegs baud d7 st2 m s).irqPending = s.irqPending := rfl
@[simp] theorem applyRegs_hostReq (baud : BitVec 32) (d7 st2 : BitVec 1) (m : ParMode) (s : State) :
    (applyRegs baud d7 st2 m s).hostReq = s.hostReq := rfl
@[simp] theorem applyRegs_phase (baud : BitVec 32) (d7 st2 : BitVec 1) (m : ParMode) (s : State) :
    (applyRegs baud d7 st2 m s).phase = s.phase := rfl
@[simp] theorem applyRegs_tResp (baud : BitVec 32) (d7 st2 : BitVec 1) (m : ParMode) (s : State) :
    (applyRegs baud d7 st2 m s).tResp = s.tResp := rfl
@[simp] theorem applyRegs_tByte (baud : BitVec 32) (d7 st2 : BitVec 1) (m : ParMode) (s : State) :
    (applyRegs baud d7 st2 m s).tByte = s.tByte := rfl
@[simp] theorem applyRegs_waitElapsed (baud : BitVec 32) (d7 st2 : BitVec 1) (m : ParMode) (s : State) :
    (applyRegs baud d7 st2 m s).waitElapsed = s.waitElapsed := rfl
@[simp] theorem applyRegs_tickRest (baud : BitVec 32) (d7 st2 : BitVec 1) (m : ParMode) (s : State) :
    (applyRegs baud d7 st2 m s).tickRest = s.tickRest := rfl
@[simp] theorem applyRegs_result (baud : BitVec 32) (d7 st2 : BitVec 1) (m : ParMode) (s : State) :
    (applyRegs baud d7 st2 m s).result = s.result := rfl
@[simp] theorem applyRegs_faults (baud : BitVec 32) (d7 st2 : BitVec 1) (m : ParMode) (s : State) :
    (applyRegs baud d7 st2 m s).faults = s.faults := rfl
@[simp] theorem applyRegs_history (baud : BitVec 32) (d7 st2 : BitVec 1) (m : ParMode) (s : State) :
    (applyRegs baud d7 st2 m s).history = s.history := rfl
@[simp] theorem applyRegs_qAnswer (baud : BitVec 32) (d7 st2 : BitVec 1) (m : ParMode) (s : State) :
    (applyRegs baud d7 st2 m s).qAnswer = s.qAnswer := rfl
@[simp] theorem applyRegs_portOut (baud : BitVec 32) (d7 st2 : BitVec 1) (m : ParMode) (s : State) :
    (applyRegs baud d7 st2 m s).portOut = s.portOut := rfl
@[simp] theorem applyRegs_params (baud : BitVec 32) (d7 st2 : BitVec 1) (m : ParMode) (s : State) :
    (applyRegs baud d7 st2 m s).params = s.params := rfl
@[simp] theorem applyRegs_env (baud : BitVec 32) (d7 st2 : BitVec 1) (m : ParMode) (s : State) :
    (applyRegs baud d7 st2 m s).env = s.env := rfl
@[simp] theorem applyRegs_host (baud : BitVec 32) (d7 st2 : BitVec 1) (m : ParMode) (s : State) :
    (applyRegs baud d7 st2 m s).host = s.host := rfl

/-! ### takeMove -/

@[simp] theorem takeMove_curCfg (s : State) : (takeMove s).curCfg = s.curCfg := rfl
@[simp] theorem takeMove_pendingCfg (s : State) : (takeMove s).pendingCfg = s.pendingCfg := rfl
@[simp] theorem takeMove_delayUs (s : State) : (takeMove s).delayUs = s.delayUs := rfl
@[simp] theorem takeMove_parEn (s : State) : (takeMove s).parEn = s.parEn := rfl
@[simp] theorem takeMove_parOdd (s : State) : (takeMove s).parOdd = s.parOdd := rfl
@[simp] theorem takeMove_txq (s : State) : (takeMove s).txq = s.txq := rfl
@[simp] theorem takeMove_irqPending (s : State) : (takeMove s).irqPending = s.irqPending := rfl
@[simp] theorem takeMove_hostReq (s : State) : (takeMove s).hostReq = s.hostReq := rfl
@[simp] theorem takeMove_phase (s : State) : (takeMove s).phase = s.phase := rfl
@[simp] theorem takeMove_tResp (s : State) : (takeMove s).tResp = s.tResp := rfl
@[simp] theorem takeMove_tByte (s : State) : (takeMove s).tByte = s.tByte := rfl
@[simp] theorem takeMove_waitElapsed (s : State) : (takeMove s).waitElapsed = s.waitElapsed := rfl
@[simp] theorem takeMove_tickRest (s : State) : (takeMove s).tickRest = s.tickRest := rfl
@[simp] theorem takeMove_result (s : State) : (takeMove s).result = s.result := rfl
@[simp] theorem takeMove_faults (s : State) : (takeMove s).faults = s.faults := rfl
@[simp] theorem takeMove_history (s : State) : (takeMove s).history = s.history := rfl
@[simp] theorem takeMove_qAnswer (s : State) : (takeMove s).qAnswer = s.qAnswer := rfl
@[simp] theorem takeMove_portOut (s : State) : (takeMove s).portOut = s.portOut := rfl
@[simp] theorem takeMove_params (s : State) : (takeMove s).params = s.params := rfl
@[simp] theorem takeMove_env (s : State) : (takeMove s).env = spendMove s.env := rfl
@[simp] theorem takeMove_host (s : State) : (takeMove s).host = s.host := rfl

end Sys2Proof.Machine
end

