-- ==== Sys2Proof/Laws/Ops.lean ====
section
/-! SUPPORT. What each shared operation and each micro-step can do, said once, and the arms of exec as lemmas. -/

namespace Sys2Proof.Machine

/-! ### Registers that may be unwritten -/

@[simp] theorem withReg_val {α : Type} (v : α) (n : RegName) (s : State) (k : α → State) :
    withReg (.val v) n s k = k v := rfl

@[simp] theorem withReg_unw {α : Type} (n : RegName) (s : State) (k : α → State) :
    withReg (.unw : Reg α) n s k = takeFault (.unwritten n) s := rfl

@[simp] theorem isVal_val {α : Type} (v : α) : (Reg.val v).isVal = true := rfl

@[simp] theorem isVal_unw {α : Type} : (Reg.unw : Reg α).isVal = false := rfl

theorem isVal_iff {α : Type} (r : Reg α) : r.isVal = true ↔ ∃ v, r = .val v := by
  cases r <;> simp

/-- A read either goes on with the value or takes the fault. -/
theorem withReg_cases {α : Type} (r : Reg α) (n : RegName) (s : State) (k : α → State) :
    (r = .unw ∧ withReg r n s k = takeFault (.unwritten n) s) ∨
      ∃ v, r = .val v ∧ withReg r n s k = k v := by
  cases r with
  | unw => exact .inl ⟨rfl, rfl⟩
  | val v => exact .inr ⟨v, rfl, rfl⟩

/-! ### Faults and refusals -/

/-- A fault ends a host request with FAULTED, and any other operation without a result. -/
theorem takeFault_cases (k : FaultKind) (s : State) :
    (∃ op, hostOp s.phase = some op ∧ takeFault k s = complete op (plain .faulted) (raise k op s)) ∨
      hostOp s.phase = none ∧ takeFault k s = endOperation (raise k 0xC s) := by
  unfold takeFault
  cases h : hostOp s.phase with
  | none => exact .inr ⟨rfl, rfl⟩
  | some op => exact .inl ⟨op, rfl, rfl⟩

@[simp] theorem takeFault_phase (k : FaultKind) (s : State) : (takeFault k s).phase = .idle := by
  unfold takeFault; split <;> rfl

@[simp] theorem refuse_eq (op : BitVec 4) (ops : Operands) (k : FaultKind) (s : State)
    (h : s.phase = .idle) : refuse op ops k s = afterRefusal op ops k s := by
  cases s
  simp_all [refuse, finish, raise, beginRequest, logEvent, afterRefusal]

/-- A refused request at IDLE; in any other phase it waits. -/
theorem refusedRequest_idle (op : BitVec 4) (ops : Operands) (k : FaultKind) (s : State)
    (h : s.phase = .idle) : refusedRequest op ops k s = afterRefusal op ops k s := by
  rw [refusedRequest, atIdle, if_pos h, refuse_eq _ _ _ _ h]

theorem pureRequest_idle (op : BitVec 4) (ops : Operands) (d : ResultData) (s : State)
    (h : s.phase = .idle) :
    pureRequest op ops d s = afterRequest op ops { code := .ok, data := d } s := by
  cases s
  simp_all [pureRequest, atIdle, complete, finish, startRequest, clearTemps, beginRequest, logEvent,
    afterRequest]

theorem atIdle_busy (s : State) (f : State → State) (h : s.phase ≠ .idle) : atIdle s f = s :=
  if_neg h

theorem parModeOf_legal (par : BitVec 2) (h : par ≠ 3) : ∃ m, parModeOf par = some m := by
  have all : ∀ p : BitVec 2, p ≠ 3 → (parModeOf p).isSome = true := by decide
  exact Option.isSome_iff_exists.mp (all par h)

@[simp] theorem parModeOf_three : parModeOf 3 = none := rfl

theorem parRequest_legal (op : BitVec 4) (ops : Operands) (par : BitVec 2) (s : State)
    (go : ParMode → State) (m : ParMode) (h : parModeOf par = some m) :
    parRequest op ops par s go = go m := by
  rw [parRequest, h]

/-! ### The queue -/

theorem enq_full (b : Byte) (s : State) (h : s.txq.length = (s.params.qcap : Nat)) :
    enq b s = logEvent (.enq b .full) { s with qAnswer := some .full } := if_pos h

theorem enq_room (b : Byte) (s : State) (h : s.txq.length ≠ (s.params.qcap : Nat)) :
    enq b s = logEvent (.enq b .ok) { s with txq := s.txq ++ [b], qAnswer := some .ok } := if_neg h

/-! ### Spending answers, draws and moves -/

@[simp] theorem spendAnswer_schedule (e : Env) : (spendAnswer e).schedule = e.schedule := by
  unfold spendAnswer; split <;> rfl

@[simp] theorem spendAnswer_line (e : Env) : (spendAnswer e).line = e.line := by
  unfold spendAnswer; split <;> rfl

@[simp] theorem spendAnswer_sinkDraws (e : Env) : (spendAnswer e).sinkDraws = e.sinkDraws := by
  unfold spendAnswer; split <;> rfl

@[simp] theorem sinkTake_schedule (b : Byte) (e : Env) : (sinkTake b e).schedule = e.schedule := by
  unfold sinkTake spendSinkDraw; split <;> rfl

@[simp] theorem spendMove_answers (e : Env) : (spendMove e).answers = e.answers := by
  unfold spendMove; split <;> rfl

@[simp] theorem spendMove_line (e : Env) : (spendMove e).line = e.line := by
  unfold spendMove; split <;> rfl

/-! ### The arms of exec -/

/-- No instruction stops the machine (R153). -/
theorem exec_next (i : Instr) (s : State) : ∃ t, exec i s = .next t := by
  cases i <;> exact ⟨_, rfl⟩

end Sys2Proof.Machine
end

