-- ==== Sys2Proof/Laws/Micro.lean ====
section
/-! SUPPORT. Each micro-step that branches, with all its outcomes, said once. -/

namespace Sys2Proof.Machine

/-! ### The outcomes of the micro-steps -/

theorem microPushWcfg_cases (s : State) :
    (s.pendingCfg = .unw ∧ microPushWcfg s = takeFault (.unwritten .pendingCfg) s) ∨
      ∃ p, s.pendingCfg = .val p ∧ microPushWcfg s = setPhase .pushRcfg (sendConfig p s) :=
  withReg_cases _ _ _ _

theorem microPushRcfg_cases (s : State) :
    (s.curCfg = .unw ∧ microPushRcfg s = takeFault (.unwritten .curCfg) s) ∨
      ∃ c, s.curCfg = .val c ∧
        ((echoMatches s.params (xferResp s.params.rcfgWord s) c = true ∧
            microPushRcfg s = setPhase .pushRxen (sendAndKeep s.params.rcfgWord s)) ∨
          echoMatches s.params (xferResp s.params.rcfgWord s) c = false ∧
            microPushRcfg s = complete 0x8 (plain .configRejected) (sendAndKeep s.params.rcfgWord s)) := by
  unfold microPushRcfg
  rcases withReg_cases s.curCfg .curCfg s _ with ⟨h, e⟩ | ⟨c, h, e⟩
  · exact .inl ⟨h, e⟩
  · refine .inr ⟨c, h, ?_⟩
    rw [e]
    cases hm : echoMatches s.params (xferResp s.params.rcfgWord s) c
    · exact .inr ⟨rfl, rfl⟩
    · exact .inl ⟨rfl, rfl⟩

theorem microKickTest_cases (s : State) :
    (s.curCfg = .unw ∧ microKickTest s = takeFault (.unwritten .curCfg) s) ∨
      ∃ c, s.curCfg = .val c ∧
        ((tmSet s.params c = true ∧ microKickTest s = complete 0x9 (plain .ok) s) ∨
          tmSet s.params c = false ∧ ∃ u,
            u = { sendConfig (withTm s.params c) s with
              tResp := .val (xferResp (withTm s.params c) s) } ∧
            ((respT s.params (xferResp (withTm s.params c) s) = true ∧
                microKickTest s = setPhase .kickDeq u) ∨
              respT s.params (xferResp (withTm s.params c) s) = false ∧
                microKickTest s = complete 0x9 (plain .ok) u)) := by
  unfold microKickTest
  rcases withReg_cases s.curCfg .curCfg s _ with ⟨h, e⟩ | ⟨c, h, e⟩
  · exact .inl ⟨h, e⟩
  · refine .inr ⟨c, h, ?_⟩
    rw [e]
    cases ht : tmSet s.params c
    · refine .inr ⟨rfl, _, rfl, ?_⟩
      cases hr : respT s.params (xferResp (withTm s.params c) s)
      · exact .inr ⟨rfl, by simp [hr]⟩
      · exact .inl ⟨rfl, by simp [hr]⟩
    · exact .inl ⟨rfl, rfl⟩

theorem microKickDeq_cases (s : State) :
    (s.txq = [] ∧ microKickDeq s = complete 0x9 (plain .ok) (deq s)) ∨
      ∃ b bs, s.txq = b :: bs ∧
        microKickDeq s = { deq s with tByte := .val b, phase := .kickWdata } := by
  unfold microKickDeq deqResult
  cases s.txq with
  | nil => exact .inl ⟨rfl, rfl⟩
  | cons b bs => exact .inr ⟨b, bs, rfl, rfl⟩

theorem microStxDeq_cases (s : State) :
    (s.txq = [] ∧ microStxDeq s = setPhase .stxClr (deq s)) ∨
      ∃ b bs, s.txq = b :: bs ∧
        microStxDeq s = { deq s with tByte := .val b, phase := .stxWdata } := by
  unfold microStxDeq deqResult
  cases s.txq with
  | nil => exact .inl ⟨rfl, rfl⟩
  | cons b bs => exact .inr ⟨b, bs, rfl, rfl⟩

theorem microDispProbe_cases (s : State) :
    (respR s.params (xferResp s.params.probeWord s) = true ∧
      microDispProbe s = setPhase .dispRx (sendAndKeep s.params.probeWord s)) ∨
    (respR s.params (xferResp s.params.probeWord s) = false ∧
      respT s.params (xferResp s.params.probeWord s) = true ∧
      microDispProbe s = setPhase .stxDeq (sendAndKeep s.params.probeWord s)) ∨
    respR s.params (xferResp s.params.probeWord s) = false ∧
      respT s.params (xferResp s.params.probeWord s) = false ∧
      microDispProbe s = endOperation (sendAndKeep s.params.probeWord s) := by
  unfold microDispProbe
  cases hr : respR s.params (xferResp s.params.probeWord s)
  · cases ht : respT s.params (xferResp s.params.probeWord s)
    · exact .inr (.inr ⟨rfl, rfl, by simp [hr, ht]⟩)
    · exact .inr (.inl ⟨rfl, rfl, by simp [hr, ht]⟩)
  · exact .inl ⟨rfl, by simp [hr]⟩

theorem withDataWord_cases (b : Byte) (s : State) (k : Word → State) :
    (s.parEn = .unw ∧ withDataWord b s k = takeFault (.unwritten .parEn) s) ∨
    (s.parOdd = .unw ∧ withDataWord b s k = takeFault (.unwritten .parOdd) s) ∨
      ∃ en odd, s.parEn = .val en ∧ s.parOdd = .val odd ∧
        withDataWord b s k = k (dataWord s.params b (regParMode en odd)) := by
  unfold withDataWord
  rcases withReg_cases s.parEn .parEn s _ with ⟨h, e⟩ | ⟨en, h, e⟩
  · exact .inl ⟨h, e⟩
  · rw [e]
    rcases withReg_cases s.parOdd .parOdd s _ with ⟨h', e'⟩ | ⟨odd, h', e'⟩
    · exact .inr (.inl ⟨h', e'⟩)
    · exact .inr (.inr ⟨en, odd, h, h', e'⟩)

theorem microStxClr_cases (s : State) :
    (s.delayUs = .unw ∧ microStxClr s = takeFault (.unwritten .delayUs) s) ∨
    (s.curCfg = .unw ∧ microStxClr s = takeFault (.unwritten .curCfg) s) ∨
      ∃ d c, s.delayUs = .val d ∧ s.curCfg = .val c ∧
        microStxClr s = logEvent (.waitBegin d)
          { sendConfig (withoutTm s.params c) s with waitElapsed := .val 0, tickRest := 0, phase := .stxWait } := by
  unfold microStxClr
  rcases withReg_cases s.delayUs .delayUs s _ with ⟨h, e⟩ | ⟨d, h, e⟩
  · exact .inl ⟨h, e⟩
  · rw [e]
    rcases withReg_cases s.curCfg .curCfg s _ with ⟨h', e'⟩ | ⟨c, h', e'⟩
    · exact .inr (.inl ⟨h', e'⟩)
    · exact .inr (.inr ⟨d, c, h, h', e'⟩)

theorem microStxWait_cases (s : State) :
    (s.delayUs = .unw ∧ microStxWait s = takeFault (.unwritten .delayUs) s) ∨
    (s.waitElapsed = .unw ∧ microStxWait s = takeFault (.unwritten .waitElapsed) s) ∨
      ∃ d us, s.delayUs = .val d ∧ s.waitElapsed = .val us ∧
        ((us < d.toNat ∧ microStxWait s = s) ∨
          d.toNat ≤ us ∧
            microStxWait s = logEvent .waitEnd { s with waitElapsed := .unw, tickRest := 0, phase := .stxRxen }) := by
  unfold microStxWait
  rcases withReg_cases s.delayUs .delayUs s _ with ⟨h, e⟩ | ⟨d, h, e⟩
  · exact .inl ⟨h, e⟩
  · rw [e]
    rcases withReg_cases s.waitElapsed .waitElapsed s _ with ⟨h', e'⟩ | ⟨us, h', e'⟩
    · exact .inr (.inl ⟨h', e'⟩)
    · refine .inr (.inr ⟨d, us, h, h', ?_⟩)
      rw [e']
      split
      · exact .inl ⟨‹_›, rfl⟩
      · exact .inr ⟨Nat.le_of_not_lt ‹_›, rfl⟩

end Sys2Proof.Machine
end

