-- ==== Sys2Proof/Laws/Keeps.lean ====
section
/-! SUPPORT. Said once: every meaning is a chain of the shared operations, and every step is a meaning or one of a few moves. A
property that each of those keeps is kept by exec and by step. -/

namespace Sys2Proof.Machine

/-- Every operation a meaning is a chain of keeps `P`. -/
structure KeptByOps (P : State → Prop) : Prop where
  req : ∀ op ops s, P s → P (beginRequest op ops s)
  done : ∀ op r s, P s → P (finish op r s)
  raise : ∀ k op s, P s → P (raise k op s)
  setPhase : ∀ p s, P s → P (setPhase p s)
  clearTemps : ∀ s, P s → P (clearTemps s)
  keepByte : ∀ (b : Byte) s, P s → P { s with tByte := .val b }
  keepResp : ∀ (w : Word) s, P s → P { s with tResp := .val w }
  sendConfig : ∀ w s, P s → P (sendConfig w s)
  xfer : ∀ w s, P s → P (xfer w s)
  enq : ∀ b s, P s → P (enq b s)
  deq : ∀ s, P s → P (deq s)
  deliver : ∀ b s, P s → P (deliver b s)
  apply : ∀ baud d7 st2 m s, P s → P (applyRegs baud d7 st2 m s)
  beginWait : ∀ d s, P s → P (logEvent (.waitBegin d) { s with waitElapsed := .val 0, tickRest := 0 })
  endWait : ∀ s, P s → P (logEvent .waitEnd { s with waitElapsed := .unw, tickRest := 0 })
  takeEdge : ∀ s, P s → P { s with irqPending := false }

variable {P : State → Prop}

theorem KeptByOps.complete (K : KeptByOps P) (op : BitVec 4) (r : Result) (s : State) (h : P s) :
    P (complete op r s) := K.done _ _ _ (K.clearTemps _ h)

theorem KeptByOps.endOperation (K : KeptByOps P) (s : State) (h : P s) : P (endOperation s) :=
  K.setPhase _ _ (K.clearTemps _ h)

theorem KeptByOps.start (K : KeptByOps P) (op : BitVec 4) (ops : Operands) (s : State) (h : P s) :
    P (startRequest op ops s) := K.clearTemps _ (K.req _ _ _ h)

theorem KeptByOps.takeFault (K : KeptByOps P) (k : FaultKind) (s : State) (h : P s) :
    P (takeFault k s) := by
  rcases takeFault_cases k s with ⟨op, -, e⟩ | ⟨-, e⟩ <;> rw [e]
  · exact K.complete _ _ _ (K.raise _ _ _ h)
  · exact K.endOperation _ (K.raise _ _ _ h)

theorem KeptByOps.withReg (K : KeptByOps P) {α : Type} (r : Reg α) (n : RegName) (s : State)
    (k : α → State) (h : P s) (hk : ∀ v, r = .val v → P (k v)) : P (withReg r n s k) := by
  cases r with
  | unw => exact K.takeFault _ _ h
  | val v => exact hk v rfl

theorem KeptByOps.refused (K : KeptByOps P) (op : BitVec 4) (ops : Operands) (k : FaultKind)
    (s : State) (h : P s) : P (refusedRequest op ops k s) := by
  unfold refusedRequest atIdle
  split
  · exact K.done _ _ _ (K.raise _ _ _ (K.req _ _ _ h))
  · exact h

theorem KeptByOps.pure (K : KeptByOps P) (op : BitVec 4) (ops : Operands) (d : ResultData)
    (s : State) (h : P s) : P (pureRequest op ops d s) := by
  unfold pureRequest atIdle
  split
  · exact K.complete _ _ _ (K.start _ _ _ h)
  · exact h

theorem KeptByOps.par (K : KeptByOps P) (op : BitVec 4) (ops : Operands) (par : BitVec 2)
    (s : State) (go : ParMode → State) (h : P s) (hg : ∀ m, P (go m)) :
    P (parRequest op ops par s go) := by
  unfold parRequest
  split
  · exact hg _
  · exact K.refused _ _ _ _ h

theorem KeptByOps.dataWord (K : KeptByOps P) (b : Byte) (s : State) (k : Word → State) (h : P s)
    (hk : ∀ w, P (k w)) : P (withDataWord b s k) :=
  K.withReg _ _ _ _ h fun _ _ => K.withReg _ _ _ _ h fun _ _ => hk _

theorem KeptByOps.pushWcfg (K : KeptByOps P) (s : State) (h : P s) : P (microPushWcfg s) :=
  K.withReg _ _ _ _ h fun _ _ => K.setPhase _ _ (K.sendConfig _ _ h)

theorem KeptByOps.sendAndKeep (K : KeptByOps P) (w : Word) (s : State) (h : P s) :
    P (sendAndKeep w s) := K.keepResp _ _ (K.xfer _ _ h)

theorem KeptByOps.pushRcfg (K : KeptByOps P) (s : State) (h : P s) : P (microPushRcfg s) :=
  K.withReg _ _ _ _ h fun _ _ => by
    dsimp only
    split
    · exact K.setPhase _ _ (K.sendAndKeep _ _ h)
    · exact K.complete _ _ _ (K.sendAndKeep _ _ h)

theorem KeptByOps.pushRxen (K : KeptByOps P) (s : State) (h : P s) : P (microPushRxen s) :=
  K.complete _ _ _ (K.xfer _ _ h)

theorem KeptByOps.kickTest (K : KeptByOps P) (s : State) (h : P s) : P (microKickTest s) :=
  K.withReg _ _ _ _ h fun _ _ => by
    dsimp only
    split
    · exact K.complete _ _ _ h
    · split
      · exact K.setPhase _ _ (K.keepResp _ _ (K.sendConfig _ _ h))
      · exact K.complete _ _ _ (K.keepResp _ _ (K.sendConfig _ _ h))

theorem KeptByOps.kickDeq (K : KeptByOps P) (s : State) (h : P s) : P (microKickDeq s) := by
  unfold microKickDeq
  split
  · exact K.setPhase _ _ (K.keepByte _ _ (K.deq _ h))
  · exact K.complete _ _ _ (K.deq _ h)

theorem KeptByOps.kickWdata (K : KeptByOps P) (s : State) (h : P s) : P (microKickWdata s) :=
  K.withReg _ _ _ _ h fun _ _ => K.dataWord _ _ _ h fun _ => K.complete _ _ _ (K.xfer _ _ h)

theorem KeptByOps.dispProbe (K : KeptByOps P) (s : State) (h : P s) : P (microDispProbe s) := by
  rcases microDispProbe_cases s with ⟨-, e⟩ | ⟨-, -, e⟩ | ⟨-, -, e⟩ <;> rw [e]
  · exact K.setPhase _ _ (K.sendAndKeep _ _ h)
  · exact K.setPhase _ _ (K.sendAndKeep _ _ h)
  · exact K.endOperation _ (K.sendAndKeep _ _ h)

theorem KeptByOps.dispRx (K : KeptByOps P) (s : State) (h : P s) : P (microDispRx s) :=
  K.withReg _ _ _ _ h fun _ _ => K.endOperation _ (K.deliver _ _ h)

theorem KeptByOps.stxDeq (K : KeptByOps P) (s : State) (h : P s) : P (microStxDeq s) := by
  unfold microStxDeq
  split
  · exact K.setPhase _ _ (K.keepByte _ _ (K.deq _ h))
  · exact K.setPhase _ _ (K.deq _ h)

theorem KeptByOps.stxWdata (K : KeptByOps P) (s : State) (h : P s) : P (microStxWdata s) :=
  K.withReg _ _ _ _ h fun _ _ => K.dataWord _ _ _ h fun _ => K.endOperation _ (K.xfer _ _ h)

theorem KeptByOps.stxClr (K : KeptByOps P) (s : State) (h : P s) : P (microStxClr s) :=
  K.withReg _ _ _ _ h fun _ _ => K.withReg _ _ _ _ h fun _ _ =>
    K.setPhase .stxWait _ (K.beginWait _ _ (K.sendConfig _ _ h))

theorem KeptByOps.stxWait (K : KeptByOps P) (s : State) (h : P s) : P (microStxWait s) :=
  K.withReg _ _ _ _ h fun _ _ => K.withReg _ _ _ _ h fun _ _ => by
    split
    · exact h
    · exact K.setPhase .stxRxen _ (K.endWait _ h)

theorem KeptByOps.stxRxen (K : KeptByOps P) (s : State) (h : P s) : P (microStxRxen s) :=
  K.endOperation _ (K.xfer _ _ h)

/-- What the operations keep, every instruction keeps. -/
theorem exec_keeps (K : KeptByOps P) (i : Instr) (s t : State) (h : P s)
    (e : exec i s = .next t) : P t := by
  cases i <;> (simp only [exec] at e; injection e with e; subst e)
  case writeConfig => exact K.sendConfig _ _ h
  case readConfig => exact K.sendAndKeep _ _ h
  case writeData => exact K.xfer _ _ h
  case readData => exact K.sendAndKeep _ _ h
  case reserved0 => exact K.refused _ _ _ _ h
  case encConfig => exact K.par _ _ _ _ _ h fun _ => K.pure _ _ _ _ h
  case encData => exact K.par _ _ _ _ _ h fun _ => K.pure _ _ _ _ h
  case decodeStatus => exact K.pure _ _ _ _ h
  case baudIndex => exact K.pure _ _ _ _ h
  case parityBit => exact K.par _ _ _ _ _ h fun _ => K.pure _ _ _ _ h
  case delayOf => exact K.pure _ _ _ _ h
  case applyConfig =>
    refine K.par _ _ _ _ _ h fun m => ?_
    unfold atIdle
    split
    · exact K.complete _ _ _ (K.apply _ _ _ _ _ (K.start _ _ _ h))
    · exact h
  case pushConfig =>
    split
    · exact K.pushWcfg _ (K.setPhase _ _ (K.start _ _ _ h))
    · exact K.pushWcfg _ h
    · exact K.pushRcfg _ h
    · exact K.pushRxen _ h
    · exact h
  case kick =>
    split
    · exact K.kickTest _ (K.setPhase _ _ (K.start _ _ _ h))
    · exact K.kickTest _ h
    · exact K.kickDeq _ h
    · exact K.kickWdata _ h
    · exact h
  case enqueue => exact K.enq _ _ h
  case dequeue =>
    split
    · exact K.kickDeq _ h
    · exact K.stxDeq _ h
    · exact h
  case irqDispatch =>
    split
    · split
      · exact K.dispProbe _ (K.setPhase _ _ (K.clearTemps _ (K.takeEdge _ h)))
      · exact h
    · exact K.dispProbe _ h
    · exact h
  case serviceTx =>
    split
    · exact K.stxDeq _ h
    · exact K.stxWdata _ h
    · exact K.stxClr _ h
    · exact K.stxWait _ h
    · exact K.stxRxen _ h
    · exact h
  case serviceRx =>
    split
    · exact K.dispRx _ h
    · exact h
  case reservedF => exact K.refused _ _ _ _ h

/-- Every step is the exchange of a word on the transfer port, or one agent's move. -/
theorem step_cases {s t : State} (e : step s = .next t) :
    (∃ w, s.portOut = some w ∧ exec (decodeWire s.params w) { s with portOut := none } = .next t) ∨
      s.portOut = none ∧ runMove (nextMove s.env) (takeMove s) = .next t := by
  unfold step stepOnce at e
  cases h : s.portOut with
  | some w => exact .inl ⟨w, rfl, by simpa [h] using e⟩
  | none => exact .inr ⟨rfl, by simpa [h] using e⟩

/-- What the Sequencer's move is: a meaning, a refusal on the request port, or nothing. -/
theorem sequencerMove_cases {pick : Pick} {s t : State} (e : sequencerMove pick s = .next t) :
    (∃ i, phaseOp s.phase = some i ∧ exec i s = .next t) ∨
    (phaseOp s.phase = none ∧ s.irqPending = true ∧ exec .irqDispatch s = .next t) ∨
    (∃ r, phaseOp s.phase = none ∧ s.hostReq = some r ∧ otherPort (decodeRequest r) = false ∧
      exec (decodeRequest r) { s with hostReq := none } = .next t) ∨
    (∃ r, phaseOp s.phase = none ∧ s.hostReq = some r ∧ otherPort (decodeRequest r) = true ∧
      t = refusedRequest r.op .noOperands (.refusedOp r.op) { s with hostReq := none }) ∨
    phaseOp s.phase = none ∧ s.irqPending = false ∧ s.hostReq = none ∧ t = s := by
  unfold sequencerMove at e
  cases hp : phaseOp s.phase with
  | some i => exact .inl ⟨i, rfl, by simpa [hp] using e⟩
  | none =>
    simp only [hp] at e
    rcases hi : s.irqPending with _ | _ <;> rcases hr : s.hostReq with _ | r
    · simp only [hi, hr, chooseStart] at e
      injection e with e
      exact .inr (.inr (.inr (.inr ⟨rfl, rfl, rfl, e.symm⟩)))
    · simp only [hi, hr, chooseStart, runRequest] at e
      split at e
      · rename_i ho
        injection e with e
        exact .inr (.inr (.inr (.inl ⟨r, rfl, rfl, ho, by rw [← e, ← hi]⟩)))
      · rename_i ho
        exact .inr (.inr (.inl ⟨r, rfl, rfl, by simpa using ho, by rw [← e, ← hi]⟩))
    · simp only [hi, hr, chooseStart] at e
      exact .inr (.inl ⟨rfl, rfl, by simpa using e⟩)
    · cases pick
      · simp only [hi, hr, chooseStart] at e
        exact .inr (.inl ⟨rfl, rfl, by simpa using e⟩)
      · simp only [hi, hr, chooseStart, runRequest] at e
        split at e
        · rename_i ho
          injection e with e
          exact .inr (.inr (.inr (.inl ⟨r, rfl, rfl, ho, by rw [← e, ← hi]⟩)))
        · rename_i ho
          exact .inr (.inr (.inl ⟨r, rfl, rfl, by simpa using ho, by rw [← e, ← hi]⟩))

/-- What a command of the Host's script does: it changes the request port, the Host and the other agents, or is one ENQUEUE, or is
one edge. -/
theorem runCmd_cases {c : HostCmd} {s t : State} (e : runCmd c s = .next t) :
    (∃ q a v, t = { s with hostReq := q, host := a, env := v }) ∨
    (∃ b a, t = { enq b s with host := a }) ∨ c = .edge ∧ t = irqEdge s := by
  unfold runCmd at e
  split at e
  case h_6 b bs =>
    injection e with e
    subst e
    refine .inr (.inl ⟨b, (afterWriteEnqueue b bs (enq b s)).host, ?_⟩)
    unfold afterWriteEnqueue
    split <;> rfl
  case h_2 b => injection e with e; subst e; exact .inr (.inl ⟨b, s.host, by unfold enq; split <;> rfl⟩)
  case h_10 => injection e with e; subst e; exact .inr (.inr ⟨rfl, rfl⟩)
  case h_7 => split at e <;> (injection e with e; subst e; exact .inl ⟨_, _, _, rfl⟩)
  all_goals (injection e with e; subst e; exact .inl ⟨_, _, _, rfl⟩)

/-- What the Host's move does: nothing, or the next command while no request of its own is outstanding (R141). -/
theorem hostMove_cases {s t : State} (e : hostMove s = .next t) :
    t = s ∨ ∃ c a, nextCmd s.host = some (c, a) ∧ hostWaits s = false ∧
      ((∃ q b v, t = { s with hostReq := q, host := b, env := v }) ∨
        (∃ b a', t = { enq b { s with host := a } with host := a' }) ∨
        c = .edge ∧ t = irqEdge { s with host := a }) := by
  unfold hostMove at e
  split at e
  · injection e with e
    exact .inl e.symm
  · rename_i c a hn
    split at e
    · injection e with e
      exact .inl e.symm
    · rename_i hw
      exact .inr ⟨c, a, hn, by simpa using hw, runCmd_cases e⟩

/-- Every operation and every move but the reset event keeps `P`. -/
structure KeptByMoves (P : State → Prop) : Prop extends KeptByOps P where
  dropPort : ∀ s, P s → P { s with portOut := none }
  env : ∀ (e : Env) s, P s → P { s with env := e }
  hostReq : ∀ (r : Option Request) s, P s → P { s with hostReq := r }
  host : ∀ (a : HostAgent) s, P s → P { s with host := a }
  irqEdge : ∀ s, P s → P (irqEdge s)
  passTime : ∀ us s, P s → P (timePasses us s)

theorem KeptByMoves.host_move (K : KeptByMoves P) (s t : State) (h : P s)
    (e : hostMove s = .next t) : P t := by
  rcases hostMove_cases e with rfl | ⟨c, a, -, -, ⟨q, b, v, rfl⟩ | ⟨b, a', rfl⟩ | ⟨-, rfl⟩⟩
  · exact h
  · exact K.hostReq q _ (K.host b _ (K.env v _ h))
  · exact K.host a' _ (K.enq _ _ (K.host a _ h))
  · exact K.irqEdge _ (K.host a _ h)

theorem KeptByMoves.sequencer (K : KeptByMoves P) (pick : Pick) (s t : State) (h : P s)
    (e : sequencerMove pick s = .next t) : P t := by
  rcases sequencerMove_cases e with ⟨i, -, e⟩ | ⟨-, -, e⟩ | ⟨r, -, -, -, e⟩ | ⟨r, -, -, -, e⟩ | ⟨-, -, -, e⟩
  · exact exec_keeps K.toKeptByOps _ _ _ h e
  · exact exec_keeps K.toKeptByOps _ _ _ h e
  · exact exec_keeps K.toKeptByOps _ _ _ (K.hostReq _ _ h) e
  · exact e ▸ K.refused _ _ _ _ (K.hostReq _ _ h)
  · exact e ▸ h

/-- What the operations and moves keep, every step keeps; the reset event is a case of its own. -/
theorem step_keeps (K : KeptByMoves P) (hreset : ∀ s, P s → P (resetEvent s)) (s t : State)
    (h : P s) (e : step s = .next t) : P t := by
  rcases step_cases e with ⟨w, -, e⟩ | ⟨-, e⟩
  · exact exec_keeps K.toKeptByOps _ _ _ (K.dropPort _ h) e
  · have h' : P (takeMove s) := K.env _ _ h
    unfold runMove at e
    split at e
    · exact K.sequencer _ _ _ h' e
    · exact K.host_move _ _ h' e
    · injection e with e; exact e ▸ K.irqEdge _ h'
    · injection e with e; exact e ▸ K.passTime _ _ h'
    · injection e with e; exact e ▸ hreset _ h'

end Sys2Proof.Machine
end

