-- ==== Sys2Proof/Laws/PerInstr.lean ====
section
/-! SUPPORT. Statements made per instruction. RoundTrip: the bytes of an instruction decode to it, every operand at every value its
field admits, and leave the bytes after it (R71 to R77, R83). -/

namespace Sys2Proof.Laws.RoundTrip

open Sys2Proof.Machine

/-- Decoding the encoded instruction gives the instruction and the bytes after it, in every layout in which it is a word of its
row's class. -/
def Statement (i : Instr) : Prop :=
  ∀ (p : Params) (rest : List Byte), fitsLayout p i →
    decodeBytes p (formatOf i) (encode i ++ rest) = .ok (i, rest)

theorem of_wire {i : Instr} {c : WordClass} (f : formatOf i = .wire16) (h : classOf i = some c) :
    Statement i := by
  intro p rest hf
  rw [encode, f]
  simp [decodeBytes_wire, decodeWire_encodeWire h hf]

theorem of_request {i : Instr} (f : formatOf i = .request)
    (h : decodeRequest (encodeRequest i) = i) : Statement i := by
  intro p rest _
  rw [encode, f]
  simp [decodeBytes_record, h]

theorem writeConfig (markFenN : BitVec 3) (shdn tm rm pm ram ir st pe l : BitVec 1)
    (baud : BitVec 4) : Statement (.writeConfig markFenN shdn tm rm pm ram ir st pe l baud) :=
  of_wire rfl rfl

theorem readConfig (x : Word) : Statement (.readConfig x) :=
  of_wire rfl rfl

theorem writeData (markZ : BitVec 5) (teN rts pt : BitVec 1) (d : Byte) :
    Statement (.writeData markZ teN rts pt d) :=
  of_wire rfl rfl

theorem readData (x : Word) : Statement (.readData x) :=
  of_wire rfl rfl

theorem reserved0 : Statement .reserved0 :=
  of_request rfl rfl

theorem encConfig (baud : BitVec 32) (d7 st2 : BitVec 1) (par : BitVec 2) : Statement (.encConfig baud d7 st2 par) :=
  of_request rfl rfl

theorem encData (byte : Byte) (par : BitVec 2) : Statement (.encData byte par) :=
  of_request rfl rfl

theorem decodeStatus (word : Word) : Statement (.decodeStatus word) :=
  of_request rfl rfl

theorem baudIndex (baud : BitVec 32) : Statement (.baudIndex baud) :=
  of_request rfl rfl

theorem parityBit (byte : Byte) (par : BitVec 2) : Statement (.parityBit byte par) :=
  of_request rfl rfl

theorem delayOf (baud : BitVec 32) : Statement (.delayOf baud) :=
  of_request rfl rfl

theorem applyConfig (baud : BitVec 32) (d7 st2 : BitVec 1) (par : BitVec 2) : Statement (.applyConfig baud d7 st2 par) :=
  of_request rfl rfl

theorem pushConfig : Statement .pushConfig :=
  of_request rfl rfl

theorem kick : Statement .kick :=
  of_request rfl rfl

theorem enqueue (byte : Byte) : Statement (.enqueue byte) :=
  of_request rfl rfl

theorem dequeue : Statement .dequeue :=
  of_request rfl rfl

theorem irqDispatch : Statement .irqDispatch :=
  of_request rfl rfl

theorem serviceTx : Statement .serviceTx :=
  of_request rfl rfl

theorem serviceRx : Statement .serviceRx :=
  of_request rfl rfl

theorem reservedF : Statement .reservedF :=
  of_request rfl rfl

end Sys2Proof.Laws.RoundTrip
end

