-- ==== Sys2Proof/Laws/Step.lean ====
section
/-! SUPPORT. What a step is when the next move is known, said once per kind of move. -/

namespace Sys2Proof.Machine

/-- With no word on the transfer port, a step is the next agent's move. -/
theorem step_move (m : Move) (s : State) (hp : s.portOut = none) (hm : nextMove s.env = m) :
    step s = runMove m (takeMove s) := by
  simp [step, stepOnce, hp, hm]

/-- The Host's move runs the next command, unless it waits. -/
theorem step_host_cmd (c : HostCmd) (a : HostAgent) (s : State) (hp : s.portOut = none)
    (hm : nextMove s.env = .host) (hw : hostWaits s = false) (hs : nextCmd s.host = some (c, a)) :
    step s = runCmd c { takeMove s with host := a } := by
  rw [step_move .host s hp hm]
  have hw' : hostWaits (takeMove s) = false := hw
  simp [runMove, hostMove, hw', hs]

/-- With one request pending and no edge, or the request picked, the arbiter starts the request (R23). -/
theorem chooseStart_request (pick : Pick) (irq : Bool) (r : Request)
    (h : irq = false ∨ pick = .request) : chooseStart pick irq (some r) = .request r := by
  cases irq <;> cases pick <;> simp_all [chooseStart]

/-- With an edge pending and no request, or the dispatch picked, the arbiter starts the dispatch (R23). -/
theorem chooseStart_dispatch (pick : Pick) (req : Option Request) (h : req = none ∨ pick = .irq) :
    chooseStart pick true req = .dispatch := by
  cases req <;> cases pick <;> simp_all [chooseStart]

/-- The request port runs the operations of the codes 0x1 to 0x9 (R71, R88). -/
theorem runRequest_of_code (r : Request) (s : State) (h1 : 0x1 ≤ r.op.toNat) (h9 : r.op.toNat ≤ 0x9) :
    runRequest r s = exec (decodeRequest r) s := by
  have code : ∀ op : BitVec 4, 0x1 ≤ op.toNat → op.toNat ≤ 0x9 → op = 0x1 ∨ op = 0x2 ∨ op = 0x3 ∨
      op = 0x4 ∨ op = 0x5 ∨ op = 0x6 ∨ op = 0x7 ∨ op = 0x8 ∨ op = 0x9 := by decide
  have port : otherPort (decodeRequest r) = false := by
    unfold decodeRequest
    rcases code r.op h1 h9 with h | h | h | h | h | h | h | h | h <;> rw [h] <;> rfl
  simp [runRequest, port]

/-! ### Moves that are one operation -/

@[simp] theorem runMove_irqSource (s : State) : runMove .irqSource s = .next (irqEdge s) := rfl

@[simp] theorem runMove_timeBase (us : Nat) (s : State) :
    runMove (.timeBase us) s = .next (timePasses us s) := rfl

@[simp] theorem runMove_reset (s : State) : runMove .reset s = .next (resetEvent s) := rfl

theorem timePasses_wait (ticks n : Nat) (s : State) (hp : s.phase = .stxWait)
    (hw : s.waitElapsed = .val n) :
    timePasses ticks s = { s with
      waitElapsed := .val (n + (s.tickRest + ticks * 1000000) / s.params.tickHz)
      tickRest := (s.tickRest + ticks * 1000000) % s.params.tickHz } := by
  simp [timePasses, hp, hw]

theorem timePasses_other (us : Nat) (s : State) (hp : s.phase ≠ .stxWait) : timePasses us s = s := by
  unfold timePasses; split
  · contradiction
  · rfl

end Sys2Proof.Machine
end

