-- ==== Sys2Proof/Laws/Words.lean ====
section
/-! SUPPORT. The words of the default layout, as numbers: what bits a configuration word, a data word and the three fixed words
have (R13, R74 to R78, R101, R102). -/

namespace Sys2Proof.Machine

/-- A configuration word of the default layout from its index and its three flags. -/
def defaultConfigWord (index : BitVec 4) (l st pe : Bool) : Word :=
  0xC000 ||| 0x0400 ||| flagBits st 0x0040 ||| flagBits pe 0x0020 ||| flagBits l 0x0010
    ||| index.setWidth 16

theorem configWord_default {p : Params} (h : DefaultLayout p) (baud : BitVec 32) (d7 st2 : BitVec 1)
    (m : ParMode) : configWord p baud d7 st2 m
      = defaultConfigWord (baudIndexOf p baud) (d7 == 1) (st2 == 1) (m != .none) := by
  unfold configWord defaultConfigWord
  rw [show p.wcfgMark = 0xC000 by rw [h]; rfl, show p.rmMask = 0x0400 by rw [h]; rfl,
    show p.stMask = 0x0040 by rw [h]; rfl, show p.peMask = 0x0020 by rw [h]; rfl,
    show p.lMask = 0x0010 by rw [h]; rfl, show ((p.baudLo : Fin 13) : Nat) = 0 by rw [h]; rfl, BitVec.shiftLeft_zero]

theorem dataWord_default {p : Params} (h : DefaultLayout p) (b : Byte) (m : ParMode) :
    dataWord p b m = 0x8000 ||| flagBits p.dataRts 0x0200 ||| flagBits (parityOf b m) 0x0100
      ||| b.setWidth 16 := by
  unfold dataWord
  rw [show p.wdataMark = 0x8000 by rw [h]; rfl, show p.rtsMask = 0x0200 by rw [h]; rfl,
    show p.ptMask = 0x0100 by rw [h]; rfl]

theorem tmMask_default {p : Params} (h : DefaultLayout p) : p.tmMask = 0x0800 := by rw [h]; rfl

theorem wcfgMark_default {p : Params} (h : DefaultLayout p) : p.wcfgMark = 0xC000 := by rw [h]; rfl

theorem wdataMark_default {p : Params} (h : DefaultLayout p) : p.wdataMark = 0x8000 := by rw [h]; rfl

theorem rcfgWord_default {p : Params} (h : DefaultLayout p) : p.rcfgWord = 0x4000 := by rw [h]; rfl

theorem rxenWord_default {p : Params} (h : DefaultLayout p) : p.rxenWord = 0x8500 := by
  rw [h]
  show (0x8000 ||| 0x0400 ||| 0x0100 : Word) = 0x8500
  decide

/-- R and T are bits 15 and 14 of a response, the byte is bits 7 to 0 (R79, R81). -/
theorem respR_default {p : Params} (h : DefaultLayout p) (v : Word) : respR p v = v.getLsbD 15 := by
  rw [h]; rfl

theorem respT_default {p : Params} (h : DefaultLayout p) (v : Word) : respT p v = v.getLsbD 14 := by
  rw [h]; rfl

theorem respByte_default {p : Params} (h : DefaultLayout p) (v : Word) :
    respByte p v = v.extractLsb' 0 8 := by rw [h]; rfl

theorem echoMask_default {p : Params} (h : DefaultLayout p) : p.echoMask = 0x0FFF := by rw [h]; rfl

theorem probeWord_default {p : Params} (h : DefaultLayout p) : p.probeWord = 0x0000 := by rw [h]; rfl

/-- By R6's defaults bits 15 to 14 select the class (R83). -/
theorem wordClass_default {p : Params} (h : DefaultLayout p) (w : Word) :
    wordClass p w =
      if w.extractLsb' 14 2 = 3 then .writeConfig else if w.extractLsb' 14 2 = 1 then .readConfig
      else if w.extractLsb' 14 2 = 2 then .writeData else .readData := by
  have hm : markMask p = 0xC000 := by
    unfold markMask
    rw [wcfgMark_default h, wdataMark_default h]
    decide
  unfold wordClass
  rw [hm, rxenWord_default h, rcfgWord_default h, probeWord_default h, wcfgMark_default h,
    wdataMark_default h, and_classBits]
  split
  · subst w; decide
  split
  · subst w; decide
  split
  · subst w; decide
  generalize w.extractLsb' 14 2 = c
  revert c
  decide

/-- By R6's defaults a wire word with the mark of its row of the opcode table is of that row's class (R74 to R77, R83). -/
theorem fitsLayout_default {p : Params} (h : DefaultLayout p) {i : Instr} (hi : i.tableMark = true) :
    fitsLayout p i := by
  intro c hc
  rw [wordClass_default h]
  have bits (m : Word) (k : BitVec 2) (hm : m.extractLsb' 14 2 = k) :
      (if m.extractLsb' 14 2 = 3 then WordClass.writeConfig else
        if m.extractLsb' 14 2 = 1 then .readConfig else
        if m.extractLsb' 14 2 = 2 then .writeData else .readData) =
      if k = 3 then .writeConfig else if k = 1 then .readConfig else
        if k = 2 then .writeData else .readData := by rw [hm]
  cases i <;> first | (injection hc with hc; subst hc) | nomatch hc
  case writeConfig =>
    refine (bits _ 3 ?_).trans (by decide)
    rw [← beq_iff_eq.1 hi]
    unfold encodeWire
    ext j hj
    simp only [BitVec.getElem_extractLsb', BitVec.getLsbD_append]
    interval_cases j <;> simp
  case readConfig => exact (bits _ 1 (beq_iff_eq.1 hi)).trans (by decide)
  case writeData =>
    refine (bits _ 2 ?_).trans (by decide)
    rw [← beq_iff_eq.1 hi]
    unfold encodeWire
    ext j hj
    simp only [BitVec.getElem_extractLsb', BitVec.getLsbD_append]
    interval_cases j <;> simp
  case readData => exact (bits _ 0 (beq_iff_eq.1 hi)).trans (by decide)

/-- Bits 15, 14 and RM are set, every fixed bit and TM are clear, and the index stands in the low four bits. -/
theorem defaultConfigWord_bits (index : BitVec 4) (l st pe : Bool) :
    defaultConfigWord index l st pe &&& 0xFF80 = 0xC400 ∧
      defaultConfigWord index l st pe &&& 0x000F = index.setWidth 16 := by
  revert index l st pe; decide

/-- Setting TM and clearing it again gives the word back. -/
theorem defaultConfigWord_tm (index : BitVec 4) (l st pe : Bool) :
    (defaultConfigWord index l st pe ||| 0x0800) &&& ~~~ 0x0800 = defaultConfigWord index l st pe ∧
      defaultConfigWord index l st pe &&& ~~~ 0x0800 = defaultConfigWord index l st pe := by
  revert index l st pe; decide

/-- A configuration word is of its class, with and without TM (R74, R83). -/
theorem wordClass_defaultConfigWord {p : Params} (h : DefaultLayout p) (index : BitVec 4)
    (l st pe : Bool) :
    wordClass p (defaultConfigWord index l st pe) = .writeConfig ∧
      wordClass p (defaultConfigWord index l st pe ||| 0x0800) = .writeConfig := by
  rw [wordClass_default h, wordClass_default h]
  revert index l st pe
  decide

/-- The index of a rate whose only entry in the table is `i` (R96). -/
theorem tableIndex_of_entry {t : List (Nat × BitVec 4)} {rate : Nat} {i : BitVec 4} (h : (rate, i) ∈ t)
    (only : ∀ j, (rate, j) ∈ t → j = i) : tableIndex t rate = i := by
  unfold tableIndex
  cases hf : t.find? fun e => e.1 == rate with
  | none => simpa using List.find?_eq_none.1 hf _ h
  | some e =>
    have he : e.1 = rate := by simpa using List.find?_some hf
    exact only e.2 (he ▸ List.mem_of_find?_eq_some hf)

/-- A quotient that 16 bits hold is the delay (R97). -/
theorem delayOfBaud_toNat {p : Params} {baud : BitVec 32} (h : p.delayNum / effBaud p baud < 2 ^ 16) :
    (delayOfBaud p baud).toNat = p.delayNum / effBaud p baud := by
  rw [delayOfBaud, if_pos h, BitVec.toNat_ofNat, Nat.mod_eq_of_lt h]

/-- `DELAY_OF` on each rate of S and on every other rate (R97). -/
theorem delayNum_div_effBaud {p : Params} (h : DefaultLayout p) (baud : BitVec 32) :
    43 ≤ p.delayNum / effBaud p baud ∧ p.delayNum / effBaud p baud ≤ 16666 := by
  rw [show p.delayNum = 10000000 by rw [h]; rfl]
  unfold effBaud
  rw [show (p.defaultBaud : Nat) = 9600 by rw [h]; rfl]
  split
  · rename_i h
    simp only [supportedBauds, List.mem_cons, List.not_mem_nil, or_false] at h
    rcases h with e | e | e | e | e | e | e | e | e | e <;> rw [e] <;> decide
  · decide

end Sys2Proof.Machine
end

