-- ==== Sys2Proof/Machine/ScriptText.lean ====
section
/-! DEFINITION. The text of a request script (R92, R94) and of a trace line (R93). Log 23. -/

namespace Sys2Proof.Machine

/-! ### Splitting text -/

/-- A space, a tab or a carriage return. -/
def isBlank (c : Char) : Bool := c == ' ' || c == '\t' || c == '\r'

/-- The text without blanks at its two ends. -/
def trimBlanks (cs : List Char) : List Char :=
  ((cs.dropWhile isBlank).reverse.dropWhile isBlank).reverse

/-- The pieces between the occurrences of `sep`. -/
def pieces (sep : Char) : List Char → List (List Char)
  | [] => [[]]
  | c :: cs =>
    if c = sep then [] :: pieces sep cs
    else
      match pieces sep cs with
      | p :: ps => (c :: p) :: ps
      | [] => [[c]]

/-- The comma-separated operands of a line, trimmed; none for blank text. -/
def operandTexts (cs : List Char) : List (List Char) :=
  if trimBlanks cs = [] then [] else (pieces ',' cs).map trimBlanks

/-! ### Numbers -/

/-- The value of a digit in a base, decimal or hexadecimal. -/
def digitOf (base : Nat) (c : Char) : Option Nat :=
  let v :=
    if '0' ≤ c ∧ c ≤ '9' then some (c.toNat - '0'.toNat)
    else if 'a' ≤ c ∧ c ≤ 'f' then some (c.toNat - 'a'.toNat + 10)
    else if 'A' ≤ c ∧ c ≤ 'F' then some (c.toNat - 'A'.toNat + 10)
    else none
  v.filter (· < base)

/-- The number that the digits continue from `acc`. -/
def digitsFrom (base : Nat) : Nat → List Char → Option Nat
  | acc, [] => some acc
  | acc, c :: cs => (digitOf base c).bind fun d => digitsFrom base (acc * base + d) cs

/-- "Numbers are decimal, or hexadecimal with `0x`" (R92). -/
def numberOf : List Char → Option Nat
  | [] => none
  | '0' :: 'x' :: c :: cs => digitsFrom 16 0 (c :: cs)
  | c :: cs => digitsFrom 10 0 (c :: cs)

/-- A number that fits `w` bits. -/
def numberBits (w : Nat) (cs : List Char) : Option (BitVec w) :=
  ((numberOf cs).filter (· < 2 ^ w)).map (BitVec.ofNat w)

/-! ### Operands -/

/-- A named operand: its name and the text of its value. -/
abbrev NamedText := String × List Char

/-- `name=value`. -/
def namedText (cs : List Char) : Option NamedText :=
  match pieces '=' cs with
  | [n, v] => some (String.ofList (trimBlanks n), trimBlanks v)
  | _ => none

/-- The named operands of a line, each named once and only by an allowed name. -/
def namedTexts (allowed : List String) (cs : List Char) : Option (List NamedText) :=
  ((operandTexts cs).mapM namedText).filter fun ns =>
    (ns.all fun n => allowed.contains n.1) && (ns.map Prod.fst).Nodup

/-- The text of a named operand. -/
def valueText (ns : List NamedText) (name : String) : Option (List Char) :=
  (ns.find? fun n => n.1 == name).map Prod.snd

/-- A numeric operand. -/
def valueBits (w : Nat) (ns : List NamedText) (name : String) : Option (BitVec w) :=
  (valueText ns name).bind (numberBits w)

/-- A numeric operand of REQ: an omitted one is 0 (R92). -/
def valueOrZero (w : Nat) (ns : List NamedText) (name : String) : Option (BitVec w) :=
  match valueText ns name with
  | some v => numberBits w v
  | none => some 0

/-- `data=8` is d7 = 0, `data=7` is d7 = 1 (R92). -/
def dataBits (ns : List NamedText) : Option (BitVec 1) :=
  match (valueText ns "data").bind numberOf with
  | some 8 => some 0
  | some 7 => some 1
  | _ => none

/-- `stop=1` is st2 = 0, `stop=2` is st2 = 1 (R92). -/
def stopBits (ns : List NamedText) : Option (BitVec 1) :=
  match (valueText ns "stop").bind numberOf with
  | some 1 => some 0
  | some 2 => some 1
  | _ => none

/-- `parity=<none|even|odd>` (R92, R73). -/
def parityMode (ns : List NamedText) : Option ParMode :=
  match (valueText ns "parity").map String.ofList with
  | some p => if p = "none" then some .none else if p = "even" then some .even
      else if p = "odd" then some .odd else none
  | none => none

/-- The operands of ENC_CONFIG, APPLY and LINECFG. -/
def lineOperands (cs : List Char) (mk : BitVec 32 → BitVec 1 → BitVec 1 → ParMode → ScriptLine) :
    Option ScriptLine := do
  let ns ← namedTexts ["baud", "data", "stop", "parity"] cs
  return mk (← valueBits 32 ns "baud") (← dataBits ns) (← stopBits ns) (← parityMode ns)

/-- The operands of ENC_DATA and PARITY_BIT. -/
def byteOperands (cs : List Char) (mk : Byte → ParMode → ScriptLine) : Option ScriptLine := do
  let ns ← namedTexts ["byte", "parity"] cs
  return mk (← valueBits 8 ns "byte") (← parityMode ns)

/-- One operand of a given name and width. -/
def oneOperand (w : Nat) (name : String) (cs : List Char) (mk : BitVec w → ScriptLine) :
    Option ScriptLine := do
  let ns ← namedTexts [name] cs
  return mk (← valueBits w ns name)

/-- The operands of a raw request (R92). -/
def rawRequest (cs : List Char) : Option ScriptLine := do
  let ns ← namedTexts ["op", "baud", "d7", "st2", "par", "byte", "word"] cs
  return .req {
    op := ← valueOrZero 4 ns "op"
    baud := ← valueOrZero 32 ns "baud"
    d7 := ← valueOrZero 1 ns "d7"
    st2 := ← valueOrZero 1 ns "st2"
    par := ← valueOrZero 2 ns "par"
    byte := ← valueOrZero 8 ns "byte"
    word := ← valueOrZero 16 ns "word" }

/-- A line without operands. -/
def noOperandLine (cs : List Char) (ln : ScriptLine) : Option ScriptLine :=
  if trimBlanks cs = [] then some ln else none

/-- `!answer Ok 0x....` or `!answer Err` (R92). -/
def answerLine (cs : List Char) : Option ScriptLine :=
  let t := trimBlanks cs
  let head := String.ofList (t.takeWhile fun c => !isBlank c)
  let rest := trimBlanks (t.dropWhile fun c => !isBlank c)
  if head = "Ok" then (numberBits 16 rest).map .answerOk
  else if head = "Err" then noOperandLine rest .answerErr
  else none

/-- `!sink accept` or `!sink drop` (R92). -/
def sinkLine (cs : List Char) : Option ScriptLine :=
  let t := String.ofList (trimBlanks cs)
  if t = "accept" then some .sinkAccept else if t = "drop" then some .sinkDrop else none

/-! ### Lines and scripts -/

/-- What a line's first word and the text after it mean (R92, R94). -/
def lineOf (name : String) (cs : List Char) : Option ScriptLine :=
  if name = "ENC_CONFIG" then lineOperands cs .encConfig
  else if name = "ENC_DATA" then byteOperands cs .encData
  else if name = "DECODE_STATUS" then oneOperand 16 "word" cs .decodeStatus
  else if name = "BAUD_INDEX" then oneOperand 32 "baud" cs .baudIndex
  else if name = "PARITY_BIT" then byteOperands cs .parityBit
  else if name = "DELAY_OF" then oneOperand 32 "baud" cs .delayOf
  else if name = "APPLY" then lineOperands cs .apply
  else if name = "PUSH" then noOperandLine cs .push
  else if name = "KICK" then noOperandLine cs .kick
  else if name = "ENQ" then (numberBits 8 (trimBlanks cs)).map .enq
  else if name = "REQ" then rawRequest cs
  else if name = "LINECFG" then lineOperands cs .lineCfg
  else if name = "WRITE" then ((operandTexts cs).mapM (numberBits 8)).map .write
  else if name = "!irq" then noOperandLine cs .irq
  else if name = "!answer" then answerLine cs
  else if name = "!sink" then sinkLine cs
  else none

/-- Why a text is no script. -/
inductive ScriptError where
  /-- The line of this number, counted from 1, is of no form of R92 or R94. -/
  | badLine (number : Nat)
  deriving DecidableEq, Repr

/-- One line: nothing for a blank line or a comment (R92: a `;` starts a comment), else what it says. -/
def parseLine (number : Nat) (cs : List Char) : Except ScriptError (List ScriptLine) :=
  let t := trimBlanks (cs.takeWhile fun c => c != ';')
  if t = [] then .ok []
  else
    match lineOf (String.ofList (t.takeWhile fun c => !isBlank c)) (t.dropWhile fun c => !isBlank c) with
    | some ln => .ok [ln]
    | none => .error (.badLine number)

/-- The lines from the number `n` on. -/
def parseLines : Nat → List (List Char) → Except ScriptError (List ScriptLine)
  | _, [] => .ok []
  | n, cs :: rest =>
    match parseLine n cs, parseLines (n + 1) rest with
    | .ok a, .ok b => .ok (a ++ b)
    | .error e, _ => .error e
    | .ok _, .error e => .error e

/-- The text of a script (R92). -/
def parseScript (text : String) : Except ScriptError (List ScriptLine) :=
  parseLines 1 (pieces '\n' text.toList)

/-! ### Trace lines (R93) -/

/-- One hexadecimal digit. -/
def hexDigit (n : Nat) : Char :=
  if n < 10 then Char.ofNat ('0'.toNat + n) else Char.ofNat ('A'.toNat + (n - 10))

/-- `0x` and four digits (R7). -/
def hexText (w : Word) : String :=
  String.ofList ['0', 'x', hexDigit (w.toNat / 4096), hexDigit (w.toNat / 256 % 16),
    hexDigit (w.toNat / 16 % 16), hexDigit (w.toNat % 16)]

/-- The mnemonic of a wire word, if it has one (R93). -/
def traceMnemonic (p : Params) (w : Word) : Option String :=
  (traceName p w).map fun
    | .wcfg v => "WCFG " ++ hexText v
    | .rcfg => "RCFG"
    | .wdata v => "WDATA " ++ hexText v
    | .rxen => "RXEN"
    | .probe => "PROBE"

/-- The outcome part of a trace line (R93). -/
def traceOutcome : XferResult → String
  | .ok v => "Ok " ++ hexText v
  | .err => "Err"

/-- The trace line of an exchange; no other event has one, and no word without a mnemonic (R93). -/
def traceLine (p : Params) : Event → Option String
  | .xfer w r => (traceMnemonic p w).map fun m => "xfer " ++ m ++ " -> " ++ traceOutcome r
  | .deliver _ | .waitBegin _ | .waitEnd | .enq .. | .deq _ | .irqEdge | .req .. | .done ..
  | .fault _ => none

end Sys2Proof.Machine
end

