-- ==== Sys2Proof/Tests/Slice0.lean ====
section
/-! SUPPORT. Small tests: well-formedness, words written out from the encodings of 30_encoding.md, one step per instruction with the
values of 95_test_vectors.md, and for every statement with hypotheses a state that meets them. -/

namespace Sys2Proof.Tests

open Sys2Proof Sys2Proof.Machine

/-- The next state of an outcome. -/
def got (o : Host.Outcome State Fault Refusal) : Option State :=
  match o with
  | .next s => some s
  | .fault _ => none
  | .refused _ => none

/-- L1 of 95_test_vectors.md: configured 9600-8-N-1, idle. -/
def l1 : State :=
  { State.reset with
    curCfg := .val 0xC40B, pendingCfg := .val 0xC40B, delayUs := .val 1041
    parEn := .val false, parOdd := .val false }

/-- L1+TM of 95_test_vectors.md. -/
def l1tm : State := { l1 with curCfg := .val 0xCC0B }

/-- The answers the Transfer Resource gives next. -/
def answered (as : List Answer) (s : State) : State := { s with env := { s.env with answers := as } }

/-- The moves made next. -/
def planned (ms : List Move) (s : State) : State := { s with env := { s.env with schedule := ms } }

/-- The bytes queued. -/
def queued (bs : List Byte) (s : State) : State := { s with txq := bs }

/-! ### Well-formedness: each check refuses a term -/

theorem test_ill_formed_words :
    (Instr.writeConfig 7 0 0 1 0 0 0 0 0 0 0xB).wellFormed = false ∧
    (Instr.writeConfig 6 1 0 1 0 0 0 0 0 0 0xB).wellFormed = false ∧
    (Instr.writeConfig 6 0 0 0 0 0 0 0 0 0 0xB).wellFormed = false ∧
    (Instr.writeConfig 6 0 0 1 1 0 0 0 0 0 0xB).wellFormed = false ∧
    (Instr.writeConfig 6 0 0 1 0 1 0 0 0 0 0xB).wellFormed = false ∧
    (Instr.writeConfig 6 0 0 1 0 0 1 0 0 0 0xB).wellFormed = false ∧
    (Instr.readConfig 0x4001).wellFormed = false ∧ (Instr.readData 0x0001).wellFormed = false ∧
    (Instr.writeData 0b10100 0 1 0 0x41).wellFormed = false ∧
    (Instr.writeConfig 4 0 0 1 0 0 0 0 0 0 0xB).wellFormed = false ∧
    (Instr.readConfig 0x0000).wellFormed = false ∧ (Instr.readData 0x4000).wellFormed = false ∧
    (Instr.writeData 0b11000 0 1 0 0x41).wellFormed = false := by decide

theorem test_ill_formed_requests :
    Instr.reserved0.wellFormed = false ∧ Instr.reservedF.wellFormed = false ∧
    (Instr.encConfig 9600 0 0 3).wellFormed = false ∧ (Instr.encData 0x41 3).wellFormed = false ∧
    (Instr.parityBit 0x41 3).wellFormed = false ∧
    (Instr.applyConfig 9600 0 0 3).wellFormed = false := by decide

theorem test_well_formed :
    (Instr.writeConfig 6 0 1 1 0 0 0 1 1 1 0xA).wellFormed = true ∧
    (Instr.writeData 0b10000 1 1 1 0xFF).wellFormed = true ∧ (Instr.readConfig 0x4000).wellFormed = true ∧
    (Instr.applyConfig 0xFFFFFFFF 1 1 2).wellFormed = true ∧ Instr.dequeue.wellFormed = true := by
  decide

/-! ### Decoding -/

/-- R74: bits 15, 14, then FEN' SHDN' TM RM' PM' RAM' IR ST PE L, then the index, written bit by bit. -/
theorem test_decode_writeConfig :
    decodeTableWord 16 0b1100110001111010 = some (.writeConfig 6 0 1 1 0 0 0 1 1 1 0xA) ∧
    decodeTableWord 16 0b1111001110000101 = some (.writeConfig 7 1 0 0 1 1 1 0 0 0 0x5) := by decide

/-- R75 and R77: bits 15, 14 are 01 and 00. -/
theorem test_decode_reads :
    decodeTableWord 16 0b0100000000000000 = some (.readConfig 0x4000) ∧
    decodeTableWord 16 0b0000000000000000 = some (.readData 0x0000) ∧
    decodeTableWord 16 0b0111111111111111 = some (.readConfig 0x7FFF) := by decide

/-- R76: bits 15, 14 are 10, then 000, TE', RTS, Pt, the byte; R78 is the word with TE' set. -/
theorem test_decode_writeData :
    decodeTableWord 16 0b1000001101000001 = some (.writeData 0b10000 0 1 1 0x41) ∧
    decodeTableWord 16 0b1000010100000000 = some (.writeData 0b10000 1 0 1 0x00) := by decide

/-- R71: the sixteen codes. -/
theorem test_decode_codes :
    (List.range 16).map (decodeTableWord 8) =
      [some .reserved0, some (.encConfig 0 0 0 0), some (.encData 0 0), some (.decodeStatus 0),
       some (.baudIndex 0), some (.parityBit 0 0), some (.delayOf 0), some (.applyConfig 0 0 0 0),
       some .pushConfig, some .kick, some (.enqueue 0), some .dequeue, some .irqDispatch,
       some .serviceTx, some .serviceRx, some .reservedF] := by decide

/-- The record of log 12, with APPLY of vector A2: baud 19200, d7 = 1, st2 = 1, par = 1. -/
theorem test_decode_record :
    decodeRequest (requestOfBits 0x00004B0000000077) = .applyConfig 19200 1 1 1 := by decide

theorem test_decode_short :
    decodeBytes defaultParams .wire16 [0xC4] = .error .shortWireWord ∧
    decodeBytes defaultParams .request [0x01, 0, 0] = .error .shortRequest := by decide

/-- R93. -/
theorem test_trace_names :
    [0xC40B, 0x8500, 0x8241, 0x0000, 0x4001].map (traceName defaultParams)
      = [some (.wcfg 0xC40B), some .rxen, some (.wdata 0x8241), some .probe, none] := by decide

/-- Another layout, its marks at bits 13 and 12 and the rest of R6's defaults: the classes and the names follow the marks (R6, G2). -/
def otherMarks : Params :=
  { defaultParams with wcfgMark := 0x3000, rcfgWord := 0x1000, wdataMark := 0x2000 }

theorem test_other_marks :
    [0x340B, 0x1000, 0x2241, 0x2500, 0x0000].map (traceName otherMarks)
      = [some (.wcfg 0x340B), some .rcfg, some (.wdata 0x2241), some .rxen, some .probe] ∧
    decodeWire otherMarks 0x340B = .writeConfig 1 1 0 1 0 0 0 0 0 0 0xB := by decide

/-! ### Placing an instruction -/

theorem test_placed_push :
    (got (step (State.reset.withFetchWord 8 0x8))).map (·.faults)
      = some [⟨.unwritten .pendingCfg, .pushWcfg, 0x8⟩] := by decide

theorem test_placed_word :
    (got (step (State.reset.withFetchWord 16 0xC40B))).map (·.curCfg) = some (.val 0xC40B) := by decide

/-! ### The wire words -/

theorem test_writeConfig :
    (got (exec (decodeWire defaultParams 0xC40B) (answered [.err] l1tm))).map
        (fun t => (t.curCfg, t.tResp, t.history))
      = some (.val 0xC40B, .unw, [.xfer 0xC40B .err]) := by decide

theorem test_readConfig :
    (got (exec (.readConfig 0x4000) (answered [answerOk 0x040B] l1))).map (fun t => (t.tResp, t.history))
      = some (.val 0x040B, [.xfer 0x4000 (.ok 0x040B)]) := by decide

theorem test_writeData :
    (got (exec (decodeWire defaultParams 0x8241) (answered [answerOk 0x0000] l1))).map
        (fun t => (t.tResp, t.history))
      = some (.unw, [.xfer 0x8241 (.ok 0x0000)]) := by decide

theorem test_readData :
    (got (exec (.readData 0x0000) (answered [answerOk 0x8058] l1))).map (fun t => (t.tResp, t.history))
      = some (.val 0x8058, [.xfer 0x0000 (.ok 0x8058)]) := by decide

/-! ### The codec: V-BAUD, V-CFG, V-PAR, V-DEC -/

/-- The data value a request leaves. -/
def answerOf (i : Instr) : Option Result := (got (exec i State.reset)).bind (·.result)

theorem test_baudIndex :
    [600, 1200, 2400, 4800, 9600, 19200, 38400, 57600, 115200, 230400, 0, 14400, 0xFFFFFFFF].map
        (fun b => answerOf (.baudIndex b))
      = [0xF, 0xE, 0xD, 0xC, 0xB, 0xA, 0x9, 0x2, 0x1, 0x0, 0xB, 0xB, 0xB].map
        (fun w => some (okWord w)) := by decide

theorem test_delayOf :
    [600, 1200, 2400, 4800, 9600, 19200, 38400, 57600, 115200, 230400, 0, 460800].map
        (fun b => answerOf (.delayOf b))
      = [16666, 8333, 4166, 2083, 1041, 520, 260, 173, 86, 43, 1041, 1041].map
        (fun w => some (okWord w)) := by decide

theorem test_encConfig :
    [Instr.encConfig 9600 1 1 2, .encConfig 230400 0 0 2, .encConfig 600 1 1 0,
      .encConfig 19200 0 1 0, .encConfig 57600 1 0 2, .encConfig 14400 0 0 0].map answerOf
      = [0xC47B, 0xC420, 0xC45F, 0xC44A, 0xC432, 0xC40B].map (fun w => some (okWord w)) := by decide

theorem test_encConfig_refused :
    (got (exec (.encConfig 9600 0 0 3) State.reset)).map (·.faults)
      = some [⟨.refusedPar, .idle, 0x1⟩] := by decide

theorem test_encData :
    [Instr.encData 0x41 0, .encData 0x41 2, .encData 0x07 1, .encData 0x80 1, .encData 0xFF 2].map
        answerOf
      = [0x8241, 0x8341, 0x8307, 0x8380, 0x83FF].map (fun w => some (okWord w)) := by decide

theorem test_parityBit :
    [Instr.parityBit 0x00 2, .parityBit 0x01 1, .parityBit 0x80 1, .parityBit 0xFF 1,
      .parityBit 0x7F 0].map answerOf
      = [1, 1, 1, 0, 0].map (fun w => some (okWord w)) := by decide

theorem test_decodeStatus :
    [Instr.decodeStatus 0x8058, .decodeStatus 0x4000, .decodeStatus 0xC041, .decodeStatus 0x3F12].map
        answerOf
      = [.status true false 0x58, .status false true 0x00, .status true true 0x41,
          .status false false 0x12].map (fun d => some { code := .ok, data := d }) := by decide

theorem test_reserved :
    (got (exec .reserved0 State.reset)).map (·.faults) = some [⟨.refusedOp 0x0, .idle, 0x0⟩] ∧
    (got (exec .reservedF State.reset)).map (·.result) = some (some (plain .refused)) := by decide

/-! ### The sequencer: A, P, K -/

/-- A3. -/
theorem test_applyConfig :
    (got (exec (.applyConfig 57600 1 0 2) State.reset)).map
        (fun t => (t.pendingCfg, t.delayUs, t.parEn, t.parOdd, t.result))
      = some (.val 0xC432, .val 173, .val true, .val true, some (plain .ok)) := by decide

/-- P-2's echo: bits 15 to 12 are ignored. -/
theorem test_pushConfig_echo :
    (got (exec .pushConfig (setPhase .pushRcfg (answered [answerOk 0xF40B] l1)))).map
        (fun t => (t.phase, t.tResp, t.result))
      = some (.pushRxen, .val 0xF40B, none) := by decide

/-- P-3. -/
theorem test_pushConfig_rejected :
    (got (exec .pushConfig (setPhase .pushRcfg (answered [answerOk 0x0C0B] l1)))).map
        (fun t => (t.phase, t.curCfg, t.tResp, t.result))
      = some (.idle, .val 0xC40B, .unw, some (plain .configRejected)) := by decide

/-- K-6: R is ignored, T = 0 ends the KICK. -/
theorem test_kick_no_room :
    (got (exec .kick (queued [0x41] (answered [answerOk 0x8000] l1)))).map
        (fun t => (t.curCfg, t.txq, t.phase, t.history))
      = some (.val 0xCC0B, [0x41], .idle,
        [.req 0x9 .noOperands, .xfer 0xCC0B (.ok 0x8000), .done 0x9 (plain .ok)]) := by decide

/-- K-7's last micro-step. -/
theorem test_kick_odd_parity :
    (got (exec .kick { l1tm with
        phase := .kickWdata, tByte := .val 0x41, parEn := .val true, parOdd := .val true
        env := { l1tm.env with answers := [answerOk 0] } })).map (·.history)
      = some [.xfer 0x8341 (.ok 0), .done 0x9 (plain .ok)] := by decide

/-! ### The queue: Q -/

/-- Q2 and Q5. -/
theorem test_enqueue :
    (got (exec (.enqueue 0x42) (queued [0x41] l1))).map (fun t => (t.txq, t.qAnswer))
      = some ([0x41, 0x42], some .ok) ∧
    (got (exec (.enqueue 5) (queued [1, 2, 3, 4] l1))).map (fun t => (t.txq, t.qAnswer, t.faults))
      = some ([1, 2, 3, 4], some .full, []) := by decide

/-- Q3 and Q4. -/
theorem test_dequeue :
    (got (exec .dequeue (setPhase .stxDeq (queued [0x41, 0x42] l1)))).map
        (fun t => (t.txq, t.tByte, t.history))
      = some ([0x42], .val 0x41, [.deq (some 0x41)]) ∧
    (got (exec .dequeue (setPhase .stxDeq l1))).map (fun t => (t.txq, t.history))
      = some ([], [.deq none]) := by decide

/-! ### The dispatcher and the service routines: I -/

/-- I-2: receive-ready is served, transmit-empty is not. -/
theorem test_irqDispatch_receive_first :
    (got (exec .irqDispatch (irqEdge (queued [0x42] (answered [answerOk 0xC041] l1tm))))).map
        (fun t => (t.phase, t.txq, t.irqPending, t.tResp))
      = some (.dispRx, [0x42], false, .val 0xC041) := by decide

/-- I-6: an error reads as 0x0000, so the interrupt is spurious. -/
theorem test_irqDispatch_spurious :
    (got (exec .irqDispatch (irqEdge (answered [.err] State.reset)))).map
        (fun t => (t.phase, t.faults, t.history))
      = some (.idle, [], [.irqEdge, .xfer 0x0000 .err]) := by decide

/-- I-4: STX_CLR. -/
theorem test_serviceTx_clears_tm :
    (got (exec .serviceTx (setPhase .stxClr (answered [answerOk 0] l1tm)))).map
        (fun t => (t.curCfg, t.phase, t.waitElapsed, t.history))
      = some (.val 0xC40B, .stxWait, .val 0, [.xfer 0xC40B (.ok 0), .waitBegin 1041]) := by decide

/-- I-8: the fault of a dispatch ends at IDLE, with op 0xC and no result; in STX_WDATA `par_en` is read first. -/
theorem test_serviceTx_fault :
    (got (exec .serviceTx (setPhase .stxClr State.reset))).map
        (fun t => (t.phase, t.faults, t.result))
      = some (.idle, [⟨.unwritten .delayUs, .stxClr, 0xC⟩], none) ∧
    (got (exec .serviceTx { State.reset with phase := .stxWdata, tByte := .val 0x41 })).map
        (fun t => (t.phase, t.tByte, t.faults, t.history))
      = some (.idle, .unw, [⟨.unwritten .parEn, .stxWdata, 0xC⟩], [.fault (.unwritten .parEn)]) := by
  decide

/-- I-1, with P4's dropping sink: the event is there, the line keeps nothing. -/
theorem test_serviceRx :
    (got (exec .serviceRx { l1 with
        phase := .dispRx, tResp := .val 0x8058
        env := { l1.env with sinkDraws := [false] } })).map
        (fun t => (t.phase, t.history, t.env.line))
      = some (.idle, [.deliver 0x58], []) := by decide

/-! ### The lines of a script -/

/-- R92 and R94: lines as data, in their order. -/
theorem test_readScript :
    (readScript [.apply 9600 0 0 .none, .answerOk 0x040B, .push, .sinkDrop, .irq] State.reset).host.script
      = [.request { bareRequest 0x7 with baud := 9600 }, .answer (.ok 0x04 0x0B),
          .request (bareRequest 0x8), .sink false, .edge] := by decide

/-- R92: of two `!sink` lines before a delivery the last decides. -/
theorem test_sink_lines :
    let s := readScript [.sinkAccept, .sinkDrop] (planned [.host, .host] l1)
    ((got (step s)).bind fun t => got (step t)).map (·.env.sinkDraws) = some [false] := by decide

/-- R161: with 32768 ticks a second 1041 us are 35 ticks; after 34 the wait holds. -/
theorem test_ticks :
    let s := { l1 with
      phase := .stxWait, waitElapsed := .val 0
      params := { defaultParams with tickHz := ⟨32768, by decide⟩ } }
    (got (exec .serviceTx (timePasses 34 s))).map (·.phase) = some .stxWait ∧
    (got (exec .serviceTx (timePasses 17 (timePasses 18 s)))).map (·.phase) = some .stxRxen := by decide

/-- R148: a begun WRITE does not go on after a reset; what was not begun stays. -/
theorem test_reset_drops_macro :
    let s := readScript [.write [1, 2], .push] (planned [.host, .reset] l1)
    ((got (step s)).bind fun t => got (step t)).map (fun t => (t.host.current, t.host.script, t.txq))
      = some ([], [.request (bareRequest 0x8)], []) := by decide

/-- R92: lines of programs P1, P4, P6 and P7 as text. -/
theorem test_parseScript :
    parseScript "APPLY baud=9600, data=8, stop=1, parity=none ; boot\n\n!answer Ok 0x040B\nPUSH\n!sink drop"
      = .ok [.apply 9600 0 0 .none, .answerOk 0x040B, .push, .sinkDrop] ∧
    parseScript "REQ op=0x2, byte=0x41, par=3\nWRITE 0x01, 0x02\n!answer Err\n!irq"
      = .ok [.req { bareRequest 0x2 with byte := 0x41, par := 3 }, .write [1, 2], .answerErr, .irq] := by
  decide

/-- R92: text of no form is named by its line. -/
theorem test_parseScript_error :
    parseScript "KICK\nENC_DATA byte=0x141, parity=odd" = .error (.badLine 2) := by decide

/-- R93, with the words of S5. -/
theorem test_traceLine :
    traceLine defaultParams (.xfer 0xC40B (.ok 0x0000)) = some "xfer WCFG 0xC40B -> Ok 0x0000" ∧
    traceLine defaultParams (.xfer 0x8500 .err) = some "xfer RXEN -> Err" := by decide

/-! ### Witnesses: states and operands that meet the hypotheses of a statement, one theorem per statement, every clause -/

/-- L1 with `ms` as the next moves and the request `r` waiting. -/
def waiting (r : Option Request) (ms : List Move) : State := planned ms { l1 with hostReq := r }

/-- L1 at the point where its WRITE_CONFIG was sent and the echo is read next. -/
def l1sent : State := { l1 with phase := .pushRcfg, history := [.xfer 0xC40B (.ok 0)] }

theorem default_layout : DefaultLayout defaultParams := rfl

theorem default_word : IsConfigWord defaultParams 0xC40B := ⟨9600, 0, 0, .none, by decide⟩

theorem armed_word : IsArmedWord defaultParams 0xCC0B := ⟨0xC40B, default_word, by decide⟩

/-- Both ways of being a word of the layout: the opcode table's mark, and another layout's. -/
theorem test_witness_DecodeOfEncodeIsTheInstruction :
    (Instr.writeConfig 0b110 0 0 1 0 0 0 0 0 0 0xB).tableMark = true ∧
    (Instr.readConfig 0x4000).tableMark = true ∧ (Instr.writeData 0b10000 1 0 1 0x00).tableMark = true ∧
    (Instr.readData 0x0000).tableMark = true ∧ Instr.kick.tableMark = true ∧
    fitsLayout otherMarks (.writeConfig 0b001 1 0 1 0 0 0 0 0 0 0xB) :=
  ⟨by decide, by decide, by decide, by decide, by decide, fun _ h => (Option.some.inj h) ▸ by decide⟩

/-- R6's defaults and another layout have their marks apart. -/
theorem test_marks_apart : MarksApart defaultParams ∧ MarksApart otherMarks := by
  unfold MarksApart
  decide

theorem test_witness_EmittedWordsAreWellFormed :
    DefaultLayout defaultParams ∧ Emittable defaultParams 0xC40B ∧ Emittable defaultParams 0xCC0B ∧
      Emittable defaultParams 0x4000 ∧ Emittable defaultParams 0x8341 ∧
      Emittable defaultParams 0x8500 ∧ Emittable defaultParams 0x0000 :=
  ⟨default_layout, .inl default_word, .inr (.inl armed_word), .inr (.inr (.inl rfl)),
    .inr (.inr (.inr (.inl ⟨0x41, .odd, by decide⟩))), .inr (.inr (.inr (.inr (.inl rfl)))),
    .inr (.inr (.inr (.inr (.inr rfl))))⟩

theorem test_witness_ExchangeReturnsTheAnswer :
    answerFor 0x4000 (answered [.ok 0x04 0x0B] l1).env = .ok 0x04 0x0B ∧
    answerFor 0x4000 (answered [.err] l1).env = .err := by decide

/-- R6's defaults, and another table that has its one entry for the rate. -/
theorem test_witness_BaudIndexGivesTheTableEntry :
    State.reset.phase = .idle ∧ DefaultLayout State.reset.params ∧
    (let s := { State.reset with params := { defaultParams with baudTable := [(600, 3), (9600, 5)] } }
     s.phase = .idle ∧ (600, 3) ∈ s.params.baudTable ∧
       ((s.params.defaultBaud : Nat), 5) ∈ s.params.baudTable ∧
       ∀ j, ((s.params.defaultBaud : Nat), j) ∈ s.params.baudTable → j = 5) :=
  ⟨rfl, default_layout, by decide⟩

/-- The answer follows the table in `params`, for a rate of S and for the fallback (R96, R100). -/
theorem test_baudIndex_other_table :
    let s := { State.reset with params := { defaultParams with baudTable := [(600, 3), (9600, 5)] } }
    (got (exec (.baudIndex 600) s)).map (·.result) = some (some (okWord 3)) ∧
    (got (exec (.baudIndex 300) s)).map (·.result) = some (some (okWord 5)) := by decide

/-- Of ENC_CONFIG: par = 3 and the legal codes, the default layout, and a rate outside S. -/
theorem test_witness_EncConfigAssemblesTheWord :
    l1.phase = .idle ∧ (3 : BitVec 2) = 3 ∧ (2 : BitVec 2) ≠ 3 ∧ DefaultLayout l1.params ∧
    (0xFFFFFFFF : BitVec 32).toNat ∉
      [600, 1200, 2400, 4800, 9600, 19200, 38400, 57600, 115200, 230400] :=
  ⟨rfl, rfl, by decide, default_layout, by decide⟩

theorem test_witness_EncDataAssemblesTheWord : l1.phase = .idle ∧ (2 : BitVec 2) ≠ 3 := by decide

theorem test_witness_DecodeStatusReportsTheFields :
    State.reset.phase = .idle ∧ DefaultLayout State.reset.params := ⟨rfl, default_layout⟩

theorem test_witness_ParityBitMeetsTheLaw :
    l1.phase = .idle ∧ (0 : BitVec 2) ≠ 3 ∧ (1 : BitVec 2) ≠ 3 ∧ (2 : BitVec 2) ≠ 3 := by decide

theorem test_witness_DelayOfDividesByTheEffectiveBaud :
    State.reset.phase = .idle ∧ DefaultLayout State.reset.params ∧
    State.reset.params.delayNum / 600 < 2 ^ 16 ∧
    State.reset.params.delayNum / State.reset.params.defaultBaud < 2 ^ 16 :=
  ⟨rfl, default_layout, by decide, by decide⟩

theorem test_witness_ReservedCodesAreRefused : State.reset.phase = .idle := by decide

/-- Both ways to reach the request port, at the first and the last refused code. -/
theorem test_witness_RequestPortRefusesReservedAndInternalCodes :
    (let s := waiting (some (bareRequest 0x0)) [.sequencer .irq]
     s.portOut = none ∧ s.phase = .idle ∧ s.hostReq = some (bareRequest 0x0) ∧
       nextMove s.env = .sequencer .irq ∧ s.irqPending = false) ∧
    (let s := { waiting (some (bareRequest 0xF)) [.sequencer .request] with irqPending := true }
     s.portOut = none ∧ s.phase = .idle ∧ s.hostReq = some (bareRequest 0xF) ∧
       nextMove s.env = .sequencer .request ∧ (bareRequest 0xF).op = 0xF) := by decide

theorem test_witness_ApplyConfigStoresThePendingTarget :
    State.reset.phase = .idle ∧ (2 : BitVec 2) ≠ 3 := by decide

/-- The four clauses of PUSH_CONFIG; both outcomes of the echo. -/
theorem test_witness_PushConfigRunsItsMicroSteps :
    (l1.phase = .idle ∧ l1.pendingCfg = .val 0xC40B) ∧
    (State.reset.phase = .idle ∧ State.reset.pendingCfg = .unw) ∧
    (l1sent.phase = .pushRcfg ∧ l1sent.curCfg = .val 0xC40B ∧
      responseOf (answerFor 0x4000 (answered [answerOk 0xF40B] l1sent).env) = 0xF40B ∧
      (0xF40B : Word) &&& l1.params.echoMask = 0xC40B &&& l1.params.echoMask ∧
      (0x0C0B : Word) &&& l1.params.echoMask ≠ 0xC40B &&& l1.params.echoMask) ∧
    (setPhase .pushRxen l1).phase = .pushRxen := by decide

theorem l1sent_config : ConfigInv l1sent :=
  ⟨default_layout, rfl, fun w h => (Reg.val.inj h) ▸ default_word,
    fun w h => .inl ((Reg.val.inj h) ▸ default_word), by decide,
    fun w r h => by
      have hw : w = 0xC40B := by
        have hm : Event.xfer w r = .xfer 0xC40B (.ok 0) := List.mem_singleton.mp h
        injection hm
      rw [hw]
      exact .inl default_word⟩

theorem test_witness_FailedReadBackAlwaysRejects :
    ConfigInv (answered [.err] l1sent) ∧ (answered [.err] l1sent).phase = .pushRcfg ∧
      (answered [.err] l1sent).curCfg = .val 0xC40B ∧
      answerFor l1sent.params.rcfgWord (answered [.err] l1sent).env = .err :=
  ⟨l1sent_config, rfl, rfl, rfl⟩

theorem test_witness_PushConfigWithMatchingEchoSucceeds :
    let s := answered [.err, answerOk 0x040B, .err] (waiting (some (bareRequest 0x8))
      [.sequencer .request, .sequencer .irq, .sequencer .irq])
    s.portOut = none ∧ s.phase = .idle ∧ s.irqPending = false ∧
      s.hostReq = some (bareRequest 0x8) ∧ (bareRequest 0x8).op = 0x8 ∧
      s.pendingCfg = .val 0xC40B ∧ s.env.answers = [.err, answerOk 0x040B, .err] ∧
      s.env.schedule = [.sequencer .request, .sequencer .irq, .sequencer .irq] ∧
      responseOf (answerOk 0x040B) &&& s.params.echoMask = 0xC40B &&& s.params.echoMask := by decide

/-- TM clear with T = 1 and T = 0 in the response, TM set, and UNW. -/
theorem test_witness_KickTestArmsTransmit :
    (l1.phase = .idle ∧ l1.curCfg = .val 0xC40B ∧ (0xC40B : Word) &&& l1.params.tmMask = 0 ∧
      (responseOf (answerFor 0xCC0B (answered [answerOk 0x4000] l1).env)).getLsbD l1.params.tBit = true ∧
      (responseOf (answerFor 0xCC0B (answered [.err] l1).env)).getLsbD l1.params.tBit = false) ∧
    (l1tm.phase = .idle ∧ l1tm.curCfg = .val 0xCC0B ∧ (0xCC0B : Word) &&& l1tm.params.tmMask ≠ 0) ∧
    (State.reset.phase = .idle ∧ State.reset.curCfg = .unw) := by decide

/-- KICK_DEQ with a byte and without, KICK_WDATA with both flags written, with `par_en` UNW (K-9), with `par_odd` UNW. -/
theorem test_witness_KickSendsAtMostOneByte :
    (let s := setPhase .kickDeq (queued [0x41] l1tm)
     s.phase = .kickDeq ∧ s.txq = [0x41]) ∧
    (let s := setPhase .kickDeq l1tm
     s.phase = .kickDeq ∧ s.txq = []) ∧
    (let s := { l1tm with phase := .kickWdata, tByte := .val 0x41 }
     s.phase = .kickWdata ∧ s.tByte = .val 0x41 ∧ s.parEn = .val false ∧ s.parOdd = .val false) ∧
    (let s := { State.reset with phase := .kickWdata, tByte := .val 0x41 }
     s.phase = .kickWdata ∧ s.tByte = .val 0x41 ∧ s.parEn = .unw) ∧
    (let s := { State.reset with phase := .kickWdata, tByte := .val 0x41, parEn := .val true }
     s.phase = .kickWdata ∧ s.tByte = .val 0x41 ∧ s.parEn = .val true ∧ s.parOdd = .unw) := by decide

theorem test_witness_ServiceTxSendsTheOldestByte :
    (let s := setPhase .stxDeq (queued [0x42] l1tm)
     s.phase = .stxDeq ∧ s.txq = [0x42]) ∧
    (let s := { l1tm with phase := .stxWdata, tByte := .val 0x42 }
     s.phase = .stxWdata ∧ s.tByte = .val 0x42 ∧ s.parEn = .val false ∧ s.parOdd = .val false) ∧
    (let s := { State.reset with phase := .stxWdata, tByte := .val 0x42 }
     s.phase = .stxWdata ∧ s.tByte = .val 0x42 ∧ s.parEn = .unw) ∧
    (let s := { State.reset with phase := .stxWdata, tByte := .val 0x42, parEn := .val true }
     s.phase = .stxWdata ∧ s.tByte = .val 0x42 ∧ s.parEn = .val true ∧ s.parOdd = .unw) := by decide

/-- The wait just short of 1041 us and at 1041 us, and every other clause. -/
theorem test_witness_ServiceTxReleasesTheLine :
    (let s := setPhase .stxDeq l1tm
     s.phase = .stxDeq ∧ s.txq = []) ∧
    (let s := setPhase .stxClr l1tm
     s.phase = .stxClr ∧ s.delayUs = .val 1041 ∧ s.curCfg = .val 0xCC0B) ∧
    (let s := setPhase .stxClr State.reset
     s.phase = .stxClr ∧ s.delayUs = .unw) ∧
    (let s := { State.reset with phase := .stxClr, delayUs := .val 1041 }
     s.phase = .stxClr ∧ s.delayUs = .val 1041 ∧ s.curCfg = .unw) ∧
    (let s := { l1 with phase := .stxWait, waitElapsed := .val 1040 }
     s.phase = .stxWait ∧ s.delayUs = .val 1041 ∧ s.waitElapsed = .val 1040 ∧
       1040 < (1041 : Word).toNat ∧ ¬ 1041 < (1041 : Word).toNat) ∧
    (setPhase .stxRxen l1).phase = .stxRxen := by decide

theorem test_witness_ReleaseSequenceRunsInOrder :
    let s := planned [.sequencer .irq, .timeBase 1041, .sequencer .irq, .sequencer .irq]
      (setPhase .stxClr l1tm)
    s.portOut = none ∧ s.phase = .stxClr ∧ s.delayUs = .val 1041 ∧ s.curCfg = .val 0xCC0B ∧
      (1041 : Word).toNat * s.params.tickHz ≤ 1041 * 1000000 ∧
      s.env.schedule = [.sequencer .irq, .timeBase 1041, .sequencer .irq, .sequencer .irq] := by decide

theorem test_witness_ServiceRxDeliversOneByte :
    let s := { l1 with phase := .dispRx, tResp := .val 0x8058 }
    s.phase = .dispRx ∧ s.tResp = .val 0x8058 ∧ DefaultLayout s.params := ⟨rfl, rfl, default_layout⟩

/-- The two draws differ, and both runs answer a next state. -/
theorem test_witness_LineSinkChoiceIsInvisible :
    let s := { l1 with phase := .dispRx, tResp := .val 0x8058 }
    (got (exec .serviceRx { s with env := { s.env with sinkDraws := [true] } })).map (·.env.line)
      = some [0x58] ∧
    (got (exec .serviceRx { s with env := { s.env with sinkDraws := [false] } })).map (·.env.line)
      = some [] := by decide

theorem test_witness_IrqDispatchProbesAndBranches :
    let s := answered [answerOk 0x8058] (irqEdge l1)
    s.phase = .idle ∧ s.irqPending = true ∧
      responseOf (answerFor s.params.probeWord s.env) = 0x8058 := by decide

theorem test_witness_IrqEdgeSetsTheLatch :
    let s := planned [.irqSource] (setPhase .stxWait l1)
    s.portOut = none ∧ nextMove s.env = .irqSource := by decide

theorem test_witness_DispatchIgnoresRequestAndResult :
    (got (exec .irqDispatch (answered [.err] (irqEdge (waiting (some (bareRequest 0x9)) []))))).isSome ∧
    (got (exec .serviceRx { l1 with phase := .dispRx, tResp := .val 0x8058 })).isSome ∧
    (got (exec .serviceTx (setPhase .stxClr (answered [.err] l1tm)))).isSome := by decide

theorem test_witness_DequeueTakesTheOldestByte :
    (let s := setPhase .kickDeq (queued [1, 2] l1)
     s.txq = [1, 2] ∧ s.phase = .kickDeq) ∧
    (let s := setPhase .stxDeq (queued [1, 2] l1)
     s.txq = [1, 2] ∧ s.phase = .stxDeq) ∧
    (let s := setPhase .kickDeq l1
     s.txq = [] ∧ s.phase = .kickDeq) ∧
    (let s := setPhase .stxDeq l1
     s.txq = [] ∧ s.phase = .stxDeq) := by decide

/-- A state that meets FifoInv with bytes enqueued, dequeued and still queued, and a next state after it. -/
theorem test_witness_QueueStaysFifo :
    let s := { planned [.host] (queued [2, 3] l1) with
      history := [.enq 1 .ok, .enq 2 .ok, .deq (some 1), .enq 9 .full, .enq 3 .ok, .deq none] }
    FifoInv s ∧ (got (step s)).isSome := by
  constructor
  · show ([1, 2, 3] : List Byte) = [1] ++ [2, 3]
    rfl
  · decide

/-- A full queue meets CapacityInv. -/
theorem test_witness_QueueStaysWithinCapacity :
    CapacityInv (planned [.host] (queued [1, 2, 3, 4] l1)) ∧
      (got (step (planned [.host] (queued [1, 2, 3, 4] l1)))).isSome := by
  constructor
  · show 4 ≤ 4
    exact Nat.le_refl 4
  · decide

/-- An ENQUEUE and a DEQUEUE that change the queue. -/
theorem test_witness_OnlyQueueOperationsChangeTheQueue :
    (got (exec (.enqueue 5) l1)).map (·.txq) = some [5] ∧ l1.txq ≠ [5] ∧
    (got (exec .kick (setPhase .kickDeq (queued [5] l1)))).map (·.txq) = some [] := by decide

/-- The three writers of `cur_cfg`, each with a change. -/
theorem test_witness_OnlyThreePlacesWriteCurCfg :
    (got (exec .pushConfig (answered [.err] l1tm))).map (·.curCfg) = some (.val 0xC40B) ∧
    (got (exec .kick (answered [.err] l1))).map (·.curCfg) = some (.val 0xCC0B) ∧
    (got (exec .serviceTx (setPhase .stxClr (answered [.err] l1tm)))).map (·.curCfg)
      = some (.val 0xC40B) := by decide

theorem test_witness_OnlyApplyWritesTheDerivedRegisters :
    (got (exec .kick (answered [.err] l1))).isSome ∧
      ∀ baud d7 st2 par, Instr.kick ≠ .applyConfig baud d7 st2 par :=
  ⟨by decide, fun _ _ _ _ h => nomatch h⟩

theorem test_witness_ConfigurationWordsStayLegal :
    ConfigInv (planned [.sequencer .irq] (answered [.err] l1sent)) ∧
      (got (step (planned [.sequencer .irq] (answered [.err] l1sent)))).isSome :=
  ⟨l1sent_config, by decide⟩

theorem test_witness_ConfigurationConstantBitsHold :
    ConfigInv l1sent ∧ l1sent.curCfg = .val 0xC40B ∧ l1sent.pendingCfg = .val 0xC40B :=
  ⟨l1sent_config, rfl, rfl⟩

/-- In STX_WAIT, which the invariant says the most of, and at IDLE, with a next state after each. -/
theorem test_witness_PhasesStayPrepared :
    (let s := planned [.timeBase 7] { l1 with phase := .stxWait, waitElapsed := .val 0, tResp := .val 0x4000 }
     PhaseInv s ∧ (got (step s)).isSome) ∧
    (PhaseInv (planned [.irqSource] l1) ∧ (got (step (planned [.irqSource] l1))).isSome) := by
  have delay : ∀ d : Word, Reg.val (1041 : Word) = .val d → 43 ≤ d.toNat ∧ d.toNat ≤ 16666 := by
    intro d h
    have hd : d = 1041 := (Reg.val.inj h).symm
    rw [hd]
    decide
  exact ⟨⟨⟨rfl, default_layout, ⟨rfl, rfl, rfl, fun _ => rfl⟩, delay, by decide, by decide, rfl, rfl⟩, by decide⟩,
    ⟨⟨rfl, default_layout, ⟨rfl, rfl, rfl, fun _ => rfl⟩, delay, by decide, by decide, rfl, rfl⟩, by decide⟩⟩

theorem test_witness_ResetEventAbandonsTheOperation :
    let s := planned [.reset] (setPhase .stxWait l1)
    s.portOut = none ∧ nextMove s.env = .reset := by decide

/-- A word on the port; an operation in progress; a request alone and one picked beside an edge; an edge; an ENQUEUE of the Host. -/
theorem test_witness_StepRunsTheDecodedInstruction :
    ({ l1 with portOut := some 0xC40B } : State).portOut = some 0xC40B ∧
    (let s := planned [.sequencer .irq] l1sent
     s.portOut = none ∧ nextMove s.env = .sequencer .irq ∧ phaseOp s.phase = some .pushConfig) ∧
    (let s := waiting (some (bareRequest 0x9)) [.sequencer .irq]
     s.portOut = none ∧ nextMove s.env = .sequencer .irq ∧ s.phase = .idle ∧
       s.hostReq = some (bareRequest 0x9) ∧ s.irqPending = false ∧
       0x1 ≤ (bareRequest 0x9).op.toNat ∧ (bareRequest 0x9).op.toNat ≤ 0x9 ∧
       0x1 ≤ (bareRequest 0x1).op.toNat) ∧
    (let s := irqEdge (waiting (some (bareRequest 0x9)) [.sequencer .irq])
     s.portOut = none ∧ nextMove s.env = .sequencer .irq ∧ s.phase = .idle ∧
       s.irqPending = true ∧ s.hostReq ≠ none) ∧
    (let s := setScript [.enqueue 7] (waiting none [.host])
     s.portOut = none ∧ nextMove s.env = .host ∧ hostWaits s = false ∧
       nextCmd s.host = some (.enqueue 7, HostAgent.reset)) := by decide

theorem test_witness_OperationsWaitOutsideTheirPhases :
    (formatOf .kick = .request ∧ (∀ b, Instr.kick ≠ .enqueue b) ∧
      phaseOp (setPhase .stxWait l1).phase ≠ some .kick ∧ (setPhase .stxWait l1).phase ≠ .idle) ∧
    (formatOf .irqDispatch = .request ∧ phaseOp l1.phase ≠ some .irqDispatch ∧ l1.phase = .idle ∧
      l1.irqPending = false) := by
  exact ⟨⟨rfl, fun b => Instr.noConfusion, by decide, by decide⟩, by decide⟩

theorem test_witness_IdleSequencerDoesNothing :
    let s := waiting none [.sequencer .request]
    s.portOut = none ∧ nextMove s.env = .sequencer .request ∧ s.phase = .idle ∧
      s.irqPending = false ∧ s.hostReq = none := by decide

/-- A fault and a completion. -/
theorem test_witness_FaultOrCompletionReturnsToIdle :
    (got (exec .kick State.reset)).map (newEvents State.reset)
      = some [.req 0x9 .noOperands, .fault (.unwritten .curCfg), .done 0x9 (plain .faulted)] := by
  decide

/-- A step that records a fault. -/
theorem test_witness_AtMostOneFaultPerStep :
    let s := planned [.sequencer .irq] (setPhase .stxClr State.reset)
    (got (step s)).map (newEvents s) = some [.fault (.unwritten .delayUs)] := by decide

/-- A step with an external event. -/
theorem test_witness_AtMostOneExternalEventPerStep :
    let s := planned [.sequencer .irq] (setPhase .stxDeq l1)
    (got (step s)).map (newEvents s) = some [.deq none] := by decide

theorem test_witness_HistoryAndFaultsOnlyGrow :
    let s := planned [.irqSource] l1sent
    (got (step s)).isSome ∧ s.portOut = none ∧ nextMove s.env ≠ .reset := by decide

theorem test_witness_NothingStartsDuringAnOperation :
    let s := irqEdge (planned [.sequencer .request]
      { l1 with phase := .stxDeq, hostReq := some (bareRequest 0x9) })
    (got (step s)).isSome ∧ s.portOut = none ∧ s.phase ≠ .idle ∧ nextMove s.env ≠ .reset ∧
      s.irqPending = true ∧ s.hostReq = some (bareRequest 0x9) := by decide

theorem test_witness_TimeBaseAdvancesOnlyTheWait :
    (let s := planned [.timeBase 9] { l1 with phase := .stxWait, waitElapsed := .val 0 }
     s.portOut = none ∧ nextMove s.env = .timeBase 9 ∧ s.phase = .stxWait ∧
       s.waitElapsed = .val 0) ∧
    (let s := planned [.timeBase 9] l1
     s.portOut = none ∧ nextMove s.env = .timeBase 9 ∧ s.phase ≠ .stxWait) := by decide

theorem test_witness_OnlyTheTimeBaseIncreasesTheWait :
    let s := planned [.timeBase 9] { l1 with phase := .stxWait, waitElapsed := .val 5 }
    s.waitElapsed = .val 5 ∧ (got (step s)).map (·.waitElapsed) = some (.val 14) ∧ 5 < 14 := by
  decide

theorem test_witness_HostWaitsForItsRequest :
    let s := setScript [.enqueue 7] (waiting (some (bareRequest 0x9)) [.host])
    s.portOut = none ∧ nextMove s.env = .host ∧ hostWaits s = true := by decide

theorem test_witness_HostReachesOnlyThePorts :
    let s := setScript [.enqueue 7] (waiting none [.host])
    (got (step s)).isSome ∧ s.portOut = none ∧ nextMove s.env = .host := by decide

theorem test_witness_SubmitLoopKicksAndRetries :
    (let s := setScript [.write [1, 2]] (waiting none [.host])
     s.portOut = none ∧ nextMove s.env = .host ∧ hostWaits s = false ∧
       nextCmd s.host = some (.write [1, 2], HostAgent.reset) ∧ s.txq.length ≠ s.params.qcap) ∧
    (let s := doFirst [.write [1]] (queued [1, 2, 3, 4] (waiting none [.host]))
     hostWaits s = false ∧ nextCmd s.host = some (.write [1], HostAgent.reset) ∧
       s.txq.length = s.params.qcap) ∧
    (let s := doFirst [.write []] (waiting none [.host])
     hostWaits s = false ∧ nextCmd s.host = some (.write [], HostAgent.reset)) := by decide

theorem test_witness_LineConfigurationAppliesThenPushes :
    (let s := setScript [.lineCfg 9600 0 0 0] (waiting none [.host])
     s.portOut = none ∧ nextMove s.env = .host ∧ hostWaits s = false ∧
       nextCmd s.host = some (.lineCfg 9600 0 0 0, HostAgent.reset)) ∧
    (let s := doFirst [.request (bareRequest 0x8), .lineReport] (waiting none [.host])
     s.portOut = none ∧ nextMove s.env = .host ∧ hostWaits s = false ∧
       nextCmd s.host =
         some (.request (bareRequest 0x8), { HostAgent.reset with current := [.lineReport] })) ∧
    (let s := doFirst [.lineReport] (waiting none [.host])
     hostWaits s = false ∧ nextCmd s.host = some (.lineReport, HostAgent.reset)) := by decide

theorem test_witness_SessionAndWriteRoomStayAtTheHost :
    (let s := setScript [.openSession] (waiting none [.host])
     s.portOut = none ∧ nextMove s.env = .host ∧ hostWaits s = false ∧
       nextCmd s.host = some (.openSession, HostAgent.reset) ∧ s.host.session = false ∧
       (setSession true s).host.session = true) ∧
    nextCmd (setScript [.closeSession] l1).host = some (.closeSession, HostAgent.reset) ∧
    nextCmd (setScript [.writeRoom] l1).host = some (.writeRoom, HostAgent.reset) := by decide

theorem test_witness_ScriptLinesReachTheirAgents :
    (let s := setScript [.edge] (waiting none [.host])
     s.portOut = none ∧ nextMove s.env = .host ∧ hostWaits s = false ∧
       nextCmd s.host = some (.edge, HostAgent.reset)) ∧
    nextCmd (setScript [.answer .err] l1).host = some (.answer .err, HostAgent.reset) ∧
    nextCmd (setScript [.sink false] l1).host = some (.sink false, HostAgent.reset) := by decide

theorem test_witness_WaitEndsAfterEnoughTicks :
    let s := { l1 with phase := .stxWait, waitElapsed := .val 0 }
    s.phase = .stxWait ∧ s.delayUs = .val 1041 ∧ s.waitElapsed = .val 0 ∧ s.tickRest = 0 := by decide

/-- L1 with a quiet IRQ source and only a write-room query left, which the next move asks. -/
theorem test_witness_AfterTheEndNothingHappens :
    let s := setScript [.writeRoom] { l1 with env := { l1.env with quiet := true, schedule := [.host] } }
    Ended s ∧ s.portOut = none ∧ nextMove s.env ≠ .reset ∧ (got (step s)).isSome :=
  ⟨⟨rfl, rfl, rfl, by decide, rfl, by decide, by decide, by decide⟩, by decide⟩

end Sys2Proof.Tests
end

/-! The order of the events of one step, said once for every operation and every step, and what it gives for the external
events (R9, R48, R59). -/

namespace Sys2Proof.Machine

/-! ### The place of an event in its step -/

/-- Where an event stands among those of its step: the start of a request, what reaches another agent, the start of a wait, a fault,
the answer to a request. -/
def Event.place : Event → Nat
  | .req .. => 0
  | .xfer .. | .deliver .. | .waitEnd | .deq .. | .enq .. | .irqEdge => 1
  | .waitBegin .. => 2
  | .fault .. => 3
  | .done .. => 4

theorem place_of_isExternal : ∀ {e : Event}, e.isExternal = true → e.place = 1
  | .xfer .., _ | .deliver .., _ | .waitEnd, _ | .deq .., _ => rfl

/-- The history of `s` is `h` and after it events whose places strictly increase and are below `n`. -/
def OrderedSince (h : List Event) (n : Nat) (s : State) : Prop :=
  ∃ es, s.history = h ++ es ∧ es.Pairwise (fun a b => a.place < b.place) ∧ ∀ e ∈ es, e.place < n

namespace OrderedSince

variable {h : List Event} {n m : Nat} {s t : State}

theorem refl (s : State) : OrderedSince s.history 0 s :=
  ⟨[], (List.append_nil _).symm, .nil, nofun⟩

/-- What leaves the history as it was keeps the order. -/
theorem unchanged (H : OrderedSince h n s) (ht : t.history = s.history) (hm : n ≤ m := by decide) :
    OrderedSince h m t := by
  obtain ⟨es, hs, hp, hb⟩ := H
  exact ⟨es, ht.trans hs, hp, fun e he => (hb e he).trans_le hm⟩

/-- An event whose place comes after all the others' may follow them. -/
theorem append {e : Event} (H : OrderedSince h n s) (ht : t.history = s.history ++ [e])
    (hn : n ≤ e.place) (hm : e.place < m) : OrderedSince h m t := by
  obtain ⟨es, hs, hp, hb⟩ := H
  refine ⟨es ++ [e], by rw [ht, hs, List.append_assoc], ?_, fun x hx => ?_⟩
  · exact List.pairwise_append.2 ⟨hp, List.pairwise_singleton _ _, fun x hx y hy =>
      List.mem_singleton.1 hy ▸ (hb x hx).trans_le hn⟩
  · rcases List.mem_append.1 hx with hx | hx
    · exact ((hb x hx).trans_le hn).trans hm
    · exact List.mem_singleton.1 hx ▸ hm

/-- At most one of the events is an external one, for they all have the same place. -/
theorem externalEvents_le_one (H : OrderedSince s.history n t) :
    ((newEvents s t).filter Event.isExternal).length ≤ 1 := by
  obtain ⟨es, ht, hp, -⟩ := H
  rw [newEvents, ht, List.drop_left]
  match hf : es.filter Event.isExternal with
  | [] | [_] => simp
  | a :: b :: l =>
    have external (e : Event) (he : e ∈ a :: b :: l) : e.place = 1 :=
      place_of_isExternal (List.mem_filter.1 (hf ▸ he)).2
    have ordered := hf ▸ hp.filter Event.isExternal
    have : a.place < b.place := List.rel_of_pairwise_cons ordered (List.mem_cons_self ..)
    rw [external a (by simp), external b (by simp)] at this
    exact absurd this (Nat.lt_irrefl 1)

/-! ### The shared operations -/

theorem request (H : OrderedSince h 0 s) (op : BitVec 4) (ops : Operands) :
    OrderedSince h 1 (startRequest op ops s) :=
  H.append (startRequest_history ..) (Nat.le_refl 0) Nat.zero_lt_one

/-- One event that reaches another agent, whatever else of the state changes with it. -/
theorem agent {e : Event} (H : OrderedSince h 1 s) (ht : t.history = s.history ++ [e])
    (he : e.place = 1) (hm : 1 < m := by decide) : OrderedSince h m t :=
  H.append ht he.ge (he ▸ hm)

theorem raise (H : OrderedSince h 1 s) (k : FaultKind) (op : BitVec 4) :
    OrderedSince h 4 (raise k op s) :=
  H.append (raise_history ..) (by decide : 1 ≤ 3) (by decide : 3 < 4)

theorem finish (H : OrderedSince h 4 s) (op : BitVec 4) (r : Result) :
    OrderedSince h 5 (finish op r s) :=
  H.append (finish_history ..) (Nat.le_refl 4) (Nat.lt_succ_self 4)

theorem complete (H : OrderedSince h 4 s) (op : BitVec 4) (r : Result) :
    OrderedSince h 5 (complete op r s) :=
  (H.unchanged (clearTemps_history s)).finish op r

theorem takeFault (H : OrderedSince h 1 s) (k : FaultKind) : OrderedSince h 5 (takeFault k s) := by
  rcases takeFault_cases k s with ⟨op, -, e⟩ | ⟨-, e⟩ <;> rw [e]
  · exact (H.raise k op).complete op _
  · exact (H.raise k 0xC).unchanged rfl

theorem withReg {α : Type} {r : Reg α} {name : RegName} {k : α → State} (H : OrderedSince h 1 s)
    (hk : ∀ v, OrderedSince h 5 (k v)) : OrderedSince h 5 (withReg r name s k) := by
  cases r with
  | unw => exact H.takeFault _
  | val v => exact hk v

theorem withDataWord {b : Byte} {k : Word → State} (H : OrderedSince h 1 s)
    (hk : ∀ w, OrderedSince h 5 (k w)) : OrderedSince h 5 (withDataWord b s k) :=
  H.withReg fun _ => H.withReg fun _ => hk _

theorem atIdle {start : State → State} (H : OrderedSince h 0 s) (hs : OrderedSince h 5 (start s)) :
    OrderedSince h 5 (atIdle s start) := by
  unfold Machine.atIdle
  split
  · exact hs
  · exact H.unchanged rfl

theorem refusedRequest (H : OrderedSince h 0 s) (op : BitVec 4) (ops : Operands) (k : FaultKind) :
    OrderedSince h 5 (refusedRequest op ops k s) :=
  have begun : OrderedSince h 1 (beginRequest op ops s) := (H.request op ops).unchanged rfl
  H.atIdle ((begun.raise k op).finish op _)

theorem pureRequest (H : OrderedSince h 0 s) (op : BitVec 4) (ops : Operands) (d : ResultData) :
    OrderedSince h 5 (pureRequest op ops d s) :=
  H.atIdle (complete ((H.request op ops).unchanged rfl) op _)

theorem parRequest {go : ParMode → State} (H : OrderedSince h 0 s) (op : BitVec 4) (ops : Operands)
    (par : BitVec 2) (hg : ∀ m, OrderedSince h 5 (go m)) : OrderedSince h 5 (parRequest op ops par s go) := by
  unfold Machine.parRequest
  split
  · exact hg _
  · exact H.refusedRequest _ _ _

theorem enq (H : OrderedSince h 1 s) (b : Byte) : OrderedSince h 5 (enq b s) := by
  unfold Machine.enq
  split
  · exact H.agent rfl rfl
  · exact H.agent rfl rfl

/-! ### The micro-steps -/

theorem pushWcfg (H : OrderedSince h 1 s) : OrderedSince h 5 (microPushWcfg s) :=
  H.withReg fun _ => H.agent rfl rfl

theorem pushRcfg (H : OrderedSince h 1 s) : OrderedSince h 5 (microPushRcfg s) :=
  H.withReg fun _ => by
    dsimp only
    split
    · exact H.agent rfl rfl
    · exact complete (H.agent (sendAndKeep_history ..) rfl) _ _

theorem pushRxen (H : OrderedSince h 1 s) : OrderedSince h 5 (microPushRxen s) :=
  complete (H.agent (sendData_history ..) rfl) _ _

theorem kickTest (H : OrderedSince h 1 s) : OrderedSince h 5 (microKickTest s) :=
  H.withReg fun _ => by
    dsimp only
    split
    · exact complete (H.unchanged rfl) _ _
    · split
      · exact H.agent rfl rfl
      · exact complete (H.agent rfl rfl) _ _

theorem kickDeq (H : OrderedSince h 1 s) : OrderedSince h 5 (microKickDeq s) := by
  rcases microKickDeq_cases s with ⟨-, e⟩ | ⟨b, bs, -, e⟩ <;> rw [e]
  · exact complete (H.agent (deq_history s) rfl) _ _
  · exact H.agent rfl rfl

theorem kickWdata (H : OrderedSince h 1 s) : OrderedSince h 5 (microKickWdata s) :=
  H.withReg fun _ => H.withDataWord fun _ => complete (H.agent (sendData_history ..) rfl) _ _

theorem dispProbe (H : OrderedSince h 1 s) : OrderedSince h 5 (microDispProbe s) := by
  rcases microDispProbe_cases s with ⟨-, e⟩ | ⟨-, -, e⟩ | ⟨-, -, e⟩ <;> rw [e]
  · exact H.agent rfl rfl
  · exact H.agent rfl rfl
  · exact H.agent rfl rfl

theorem dispRx (H : OrderedSince h 1 s) : OrderedSince h 5 (microDispRx s) :=
  H.withReg fun _ => H.agent rfl rfl

theorem stxDeq (H : OrderedSince h 1 s) : OrderedSince h 5 (microStxDeq s) := by
  rcases microStxDeq_cases s with ⟨-, e⟩ | ⟨b, bs, -, e⟩ <;> rw [e]
  · exact H.agent rfl rfl
  · exact H.agent rfl rfl

theorem stxWdata (H : OrderedSince h 1 s) : OrderedSince h 5 (microStxWdata s) :=
  H.withReg fun _ => H.withDataWord fun _ => H.agent rfl rfl

/-- The one micro-step with two events of its own: the exchange and then the start of the wait, which is no external event. -/
theorem stxClr (H : OrderedSince h 1 s) : OrderedSince h 5 (microStxClr s) :=
  H.withReg fun d => H.withReg fun _ =>
    have sent : OrderedSince h 2 (sendConfig _ s) := H.agent (sendConfig_history ..) rfl
    sent.append (e := .waitBegin d) rfl (Nat.le_refl 2) (by decide : 2 < 5)

theorem stxWait (H : OrderedSince h 1 s) : OrderedSince h 5 (microStxWait s) :=
  H.withReg fun _ => H.withReg fun _ => by
    split
    · exact H.unchanged rfl
    · exact H.agent rfl rfl

theorem stxRxen (H : OrderedSince h 1 s) : OrderedSince h 5 (microStxRxen s) :=
  H.agent rfl rfl

/-! ### Every instruction and every step -/

/-- An instruction adds its events in the order of their places. -/
theorem exec_next {i : Instr} (start : OrderedSince h 0 s) (e : exec i s = .next t) :
    OrderedSince h 5 t := by
  have busy : OrderedSince h 1 s := start.unchanged rfl
  have same : OrderedSince h 5 s := start.unchanged rfl
  cases i <;> (simp only [exec] at e; injection e with e; subst e)
  case writeConfig => exact busy.agent (sendConfig_history ..) rfl
  case readConfig => exact busy.agent (sendAndKeep_history ..) rfl
  case writeData => exact busy.agent (sendData_history ..) rfl
  case readData => exact busy.agent (sendAndKeep_history ..) rfl
  case reserved0 => exact start.refusedRequest _ _ _
  case encConfig => exact start.parRequest _ _ _ fun _ => start.pureRequest _ _ _
  case encData => exact start.parRequest _ _ _ fun _ => start.pureRequest _ _ _
  case decodeStatus => exact start.pureRequest _ _ _
  case baudIndex => exact start.pureRequest _ _ _
  case parityBit => exact start.parRequest _ _ _ fun _ => start.pureRequest _ _ _
  case delayOf => exact start.pureRequest _ _ _
  case applyConfig =>
    exact start.parRequest _ _ _ fun _ =>
      start.atIdle (.complete ((start.request _ _).unchanged (applyRegs_history ..)) _ _)
  case pushConfig =>
    split
    · exact .pushWcfg ((start.request _ _).unchanged (setPhase_history ..))
    · exact busy.pushWcfg
    · exact busy.pushRcfg
    · exact busy.pushRxen
    · exact same
  case kick =>
    split
    · exact .kickTest ((start.request _ _).unchanged (setPhase_history ..))
    · exact busy.kickTest
    · exact busy.kickDeq
    · exact busy.kickWdata
    · exact same
  case enqueue => exact busy.enq _
  case dequeue =>
    split
    · exact busy.kickDeq
    · exact busy.stxDeq
    · exact same
  case irqDispatch =>
    split
    · split
      · exact .dispProbe (busy.unchanged (enterDispatch_history s))
      · exact same
    · exact busy.dispProbe
    · exact same
  case serviceTx =>
    split
    · exact busy.stxDeq
    · exact busy.stxWdata
    · exact busy.stxClr
    · exact busy.stxWait
    · exact busy.stxRxen
    · exact same
  case serviceRx =>
    split
    · exact busy.dispRx
    · exact same
  case reservedF => exact start.refusedRequest _ _ _

theorem sequencer {pick : Pick} (H : OrderedSince h 0 s) (e : sequencerMove pick s = .next t) :
    OrderedSince h 5 t := by
  have idle : OrderedSince h 0 { s with hostReq := none } := H.unchanged rfl
  rcases sequencerMove_cases e with ⟨i, -, e⟩ | ⟨-, -, e⟩ | ⟨r, -, -, -, e⟩ | ⟨r, -, -, -, rfl⟩ | ⟨-, -, -, rfl⟩
  · exact H.exec_next e
  · exact H.exec_next e
  · exact idle.exec_next e
  · exact idle.refusedRequest _ _ _
  · exact H.unchanged rfl

theorem host_move (H : OrderedSince h 0 s) (e : hostMove s = .next t) : OrderedSince h 5 t := by
  have called (a : HostAgent) : OrderedSince h 1 { s with host := a } := H.unchanged rfl
  rcases hostMove_cases e with rfl | ⟨c, a, -, -, ⟨q, b, v, rfl⟩ | ⟨b, a', rfl⟩ | ⟨-, rfl⟩⟩
  · exact H.unchanged rfl
  · exact H.unchanged rfl
  · exact ((called a).enq b).unchanged rfl
  · exact (called a).agent (irqEdge_history _) rfl

end OrderedSince

theorem timePasses_history (ticks : Nat) (s : State) : (timePasses ticks s).history = s.history := by
  unfold timePasses; split <;> rfl

/-- A step is the reset event, or adds its events in the order of their places. -/
theorem step_orderedSince {s t : State} (e : step s = .next t) :
    (s.portOut = none ∧ nextMove s.env = .reset ∧ t = resetEvent (takeMove s)) ∨
      OrderedSince s.history 5 t := by
  have start : OrderedSince s.history 0 s := .refl s
  have moved : OrderedSince s.history 0 (takeMove s) := start.unchanged (takeMove_history s)
  rcases step_cases e with ⟨w, -, e⟩ | ⟨hp, e⟩
  · have sent : OrderedSince s.history 0 { s with portOut := none } := start.unchanged rfl
    exact .inr (sent.exec_next e)
  · cases hm : nextMove s.env <;> rw [hm] at e
    case sequencer pick => exact .inr (moved.sequencer e)
    case host => exact .inr (moved.host_move e)
    case irqSource =>
      injection e with e
      exact .inr (e ▸ (moved.unchanged rfl : OrderedSince _ 1 _).agent (irqEdge_history _) rfl)
    case timeBase ticks =>
      injection e with e
      exact .inr (e ▸ moved.unchanged (timePasses_history ..))
    case reset =>
      injection e with e
      exact .inl ⟨hp, rfl, e.symm⟩

/-- Settles O48: the reset event adds nothing, and any other step adds events in the order of their places, of which the external
ones share one. -/
theorem atMostOneExternalEventPerStep : Obligations.AtMostOneExternalEventPerStep := by
  intro s t e
  rcases step_orderedSince e with ⟨-, -, rfl⟩ | ordered
  · simp [newEvents, resetEvent, State.reset]
  · exact ordered.externalEvents_le_one

end Sys2Proof.Machine

/-! What an instruction, a micro-step and a step can do to the state of 10_state.md, said once, and the statements about that state that
follow from it (R10 to R36). -/

namespace Sys2Proof.Machine

/-! ### What an instruction can do -/

/-- The micro-step of a phase; there is none at IDLE (R22, R121 to R135). -/
def microStep (p : Phase) (s : State) : State :=
  match p with
  | .idle => s
  | .pushWcfg => microPushWcfg s
  | .pushRcfg => microPushRcfg s
  | .pushRxen => microPushRxen s
  | .kickTest => microKickTest s
  | .kickDeq => microKickDeq s
  | .kickWdata => microKickWdata s
  | .dispProbe => microDispProbe s
  | .dispRx => microDispRx s
  | .stxDeq => microStxDeq s
  | .stxWdata => microStxWdata s
  | .stxClr => microStxClr s
  | .stxWait => microStxWait s
  | .stxRxen => microStxRxen s

/-- The state in which an instruction runs a micro-step: its operation is in progress, or is started at IDLE
(R22, R23; log 7, log 14). -/
inductive Enters : Instr → State → State → Prop
  | inProgress {i : Instr} {s : State} (h : phaseOp s.phase = some i) : Enters i s s
  | dequeue {s : State} (h : s.phase = .kickDeq ∨ s.phase = .stxDeq) : Enters .dequeue s s
  | push {s : State} (h : s.phase = .idle) :
      Enters .pushConfig s (setPhase .pushWcfg (startRequest 0x8 .noOperands s))
  | kick {s : State} (h : s.phase = .idle) :
      Enters .kick s (setPhase .kickTest (startRequest 0x9 .noOperands s))
  | dispatch {s : State} (h : s.phase = .idle) (hi : s.irqPending = true) :
      Enters .irqDispatch s (enterDispatch s)

/-- The requests that start only at IDLE and are done in one step (R88, R107, R119). -/
def oneStep : Instr → Bool
  | .reserved0 | .encConfig .. | .encData .. | .decodeStatus .. | .baudIndex .. | .parityBit .. | .delayOf ..
  | .applyConfig .. | .reservedF => true
  | .writeConfig .. | .readConfig .. | .writeData .. | .readData .. | .pushConfig | .kick | .enqueue ..
  | .dequeue | .irqDispatch | .serviceTx | .serviceRx => false

/-- Everything an instruction can do, with the phases it can do it in. -/
inductive Ran : Instr → State → State → Prop
  | waited {i : Instr} {s : State} : Ran i s s
  | refused {i : Instr} {s : State} (op : BitVec 4) (ops : Operands) (k : FaultKind) (hi : oneStep i = true)
      (h : s.phase = .idle) : Ran i s (refuse op ops k s)
  | answered {i : Instr} {s : State} (op : BitVec 4) (ops : Operands) (r : Result) (hi : oneStep i = true)
      (h : s.phase = .idle) : Ran i s (complete op r (startRequest op ops s))
  | applied {s : State} (baud : BitVec 32) (d7 st2 : BitVec 1) (par : BitVec 2) (m : ParMode)
      (h : s.phase = .idle) :
      Ran (.applyConfig baud d7 st2 par) s (complete 0x7 (plain .ok)
        (applyRegs baud d7 st2 m (startRequest 0x7 (.line baud d7 st2 par) s)))
  | enqueued {s : State} (b : Byte) : Ran (.enqueue b) s (enq b s)
  | micro {i : Instr} {s u : State} (h : Enters i s u) : Ran i s (microStep u.phase u)
  | sentConfig {s : State} (markFenN : BitVec 3) (shdn tm rm pm ram ir st pe l : BitVec 1) (baud : BitVec 4)
      (w : Word) : Ran (.writeConfig markFenN shdn tm rm pm ram ir st pe l baud) s (sendConfig w s)
  | sent {i : Instr} {s : State} (hf : formatOf i = .wire16) (w : Word) : Ran i s (sendData w s)
  | sentAndKept {i : Instr} {s : State} (hf : formatOf i = .wire16) (w : Word) :
      Ran i s (sendAndKeep w s)

namespace Ran

variable {i : Instr} {s t : State}

theorem atIdle {start : State → State} (h : s.phase = .idle → Ran i s (start s)) :
    Ran i s (atIdle s start) := by
  unfold Machine.atIdle
  split
  · exact h ‹_›
  · exact .waited

theorem refusedRequest (hi : oneStep i = true) (op : BitVec 4) (ops : Operands) (k : FaultKind) :
    Ran i s (refusedRequest op ops k s) :=
  atIdle (.refused op ops k hi)

theorem pureRequest (hi : oneStep i = true) (op : BitVec 4) (ops : Operands) (d : ResultData) :
    Ran i s (pureRequest op ops d s) :=
  atIdle (.answered op ops _ hi)

theorem parRequest (hi : oneStep i = true) (op : BitVec 4) (ops : Operands) (par : BitVec 2) {go : ParMode → State}
    (h : ∀ m, Ran i s (go m)) : Ran i s (parRequest op ops par s go) := by
  unfold Machine.parRequest
  split
  · exact h _
  · exact refusedRequest hi ..

theorem entered {p : Phase} (hp : s.phase = p) (h : Enters i s s) (ht : microStep p s = t) : Ran i s t := by
  subst hp ht
  exact .micro h

theorem inProgress {p : Phase} (hp : s.phase = p) (hi : phaseOp p = some i) (ht : microStep p s = t) :
    Ran i s t :=
  entered hp (.inProgress (hp ▸ hi)) ht

end Ran

/-- The meaning of every instruction is one of the cases of `Ran`; inversion of `exec` for every later proof. -/
theorem exec_ran {i : Instr} {s t : State} (e : exec i s = .next t) : Ran i s t := by
  cases i <;> (simp only [exec] at e; injection e with e; subst e)
  case writeConfig => exact .sentConfig ..
  case readConfig => exact .sentAndKept rfl _
  case writeData => exact .sent rfl _
  case readData => exact .sentAndKept rfl _
  case reserved0 => exact .refusedRequest rfl ..
  case encConfig => exact .parRequest rfl _ _ _ fun _ => .pureRequest rfl ..
  case encData => exact .parRequest rfl _ _ _ fun _ => .pureRequest rfl ..
  case decodeStatus => exact .pureRequest rfl ..
  case baudIndex => exact .pureRequest rfl ..
  case parityBit => exact .parRequest rfl _ _ _ fun _ => .pureRequest rfl ..
  case delayOf => exact .pureRequest rfl ..
  case applyConfig => exact .parRequest rfl _ _ _ fun m => .atIdle (.applied _ _ _ _ m)
  case pushConfig =>
    split
    case h_1 h => exact .micro (.push h)
    case h_2 h => exact .inProgress h rfl rfl
    case h_3 h => exact .inProgress h rfl rfl
    case h_4 h => exact .inProgress h rfl rfl
    case h_5 => exact .waited
  case kick =>
    split
    case h_1 h => exact .micro (.kick h)
    case h_2 h => exact .inProgress h rfl rfl
    case h_3 h => exact .inProgress h rfl rfl
    case h_4 h => exact .inProgress h rfl rfl
    case h_5 => exact .waited
  case enqueue => exact .enqueued _
  case dequeue =>
    split
    case h_1 h => exact .entered h (.dequeue (.inl h)) rfl
    case h_2 h => exact .entered h (.dequeue (.inr h)) rfl
    case h_3 => exact .waited
  case irqDispatch =>
    split
    case h_1 h =>
      split
      · exact .micro (.dispatch h ‹_›)
      · exact .waited
    case h_2 h => exact .inProgress h rfl rfl
    case h_3 => exact .waited
  case serviceTx =>
    split
    case h_1 h => exact .inProgress h rfl rfl
    case h_2 h => exact .inProgress h rfl rfl
    case h_3 h => exact .inProgress h rfl rfl
    case h_4 h => exact .inProgress h rfl rfl
    case h_5 h => exact .inProgress h rfl rfl
    case h_6 => exact .waited
  case serviceRx =>
    split
    case h_1 h => exact .inProgress h rfl rfl
    case h_2 => exact .waited
  case reservedF => exact .refusedRequest rfl ..

/-! ### What the history says after one more event -/

theorem lastConfigSent_append (p : Params) (h : List Event) (e : Event) (he : ∀ w r, e ≠ .xfer w r) :
    lastConfigSent p (h ++ [e]) = lastConfigSent p h := by
  rw [lastConfigSent, List.foldl_append, List.foldl_cons, List.foldl_nil, lastConfigSent]
  split
  · exact absurd rfl (he _ _)
  · rfl

theorem lastConfigSent_append_xfer (p : Params) (h : List Event) (w : Word) (r : XferResult) :
    lastConfigSent p (h ++ [.xfer w r]) =
      if wordClass p w = .writeConfig then .val w else lastConfigSent p h := by
  rw [lastConfigSent, List.foldl_append]
  rfl

/-! ### Operations that send nothing -/

/-- From `s` to `t` nothing was sent, and the queue and the configuration registers did not change. -/
structure Quiet (s t : State) : Prop where
  params : t.params = s.params := by rfl
  portOut : t.portOut = s.portOut := by rfl
  pendingCfg : t.pendingCfg = s.pendingCfg := by rfl
  curCfg : t.curCfg = s.curCfg := by rfl
  txq : t.txq = s.txq := by rfl
  sent : ∀ w r, .xfer w r ∈ t.history → .xfer w r ∈ s.history := by exact fun _ _ h => h
  last : ∀ p, lastConfigSent p t.history = lastConfigSent p s.history := by exact fun _ => rfl

namespace Quiet

variable {s t u : State}

theorem trans (h : Quiet s t) (h' : Quiet t u) : Quiet s u where
  params := h'.params.trans h.params
  portOut := h'.portOut.trans h.portOut
  pendingCfg := h'.pendingCfg.trans h.pendingCfg
  curCfg := h'.curCfg.trans h.curCfg
  txq := h'.txq.trans h.txq
  sent w r hx := h.sent w r (h'.sent w r hx)
  last p := (h'.last p).trans (h.last p)

theorem log (s : State) (e : Event) (he : ∀ w r, e ≠ .xfer w r) : Quiet s (logEvent e s) where
  sent w r hx := by simpa [(he w r).symm] using hx
  last p := lastConfigSent_append p s.history e he

theorem startRequest (op : BitVec 4) (ops : Operands) (s : State) : Quiet s (startRequest op ops s) :=
  (log s (.req op ops) nofun).trans {}

theorem finish (op : BitVec 4) (r : Result) (s : State) : Quiet s (finish op r s) :=
  trans {} (log _ (.done op r) nofun)

theorem complete (op : BitVec 4) (r : Result) (s : State) : Quiet s (complete op r s) :=
  trans {} (finish op r (clearTemps s))

theorem raise (k : FaultKind) (op : BitVec 4) (s : State) : Quiet s (raise k op s) :=
  trans {} (log _ (.fault k) nofun)

theorem takeFault (k : FaultKind) (s : State) : Quiet s (takeFault k s) := by
  rcases takeFault_cases k s with ⟨op, -, e⟩ | ⟨-, e⟩ <;> rw [e]
  · exact (raise k op s).trans (complete op _ _)
  · exact (raise k 0xC s).trans {}

theorem refuse (op : BitVec 4) (ops : Operands) (k : FaultKind) (s : State) :
    Quiet s (refuse op ops k s) :=
  ((log s (.req op ops) nofun).trans (raise k op _)).trans (finish op _ _)

theorem deliver (b : Byte) (s : State) : Quiet s (deliver b s) :=
  trans (t := { s with env := sinkTake b s.env }) {} (log _ (.deliver b) nofun)

theorem enters {i : Instr} (h : Enters i s u) : Quiet s u := by
  cases h with
  | inProgress | dequeue => exact {}
  | push | kick => exact (startRequest ..).trans {}
  | dispatch => exact {}

end Quiet

/-- The words of R82 b to e: those the block sends beside the WRITE_CONFIG words. -/
def IsOtherWord (p : Params) (w : Word) : Prop :=
  w = p.rcfgWord ∨ (∃ b m, w = dataWord p b m) ∨ w = p.rxenWord ∨ w = p.probeWord

/-- What one micro-step sends or takes off the queue, before it goes on to its next phase or to IDLE. -/
inductive Effect (s : State) : State → Prop
  | none : Effect s s
  | pushed (c : Word) (hp : s.phase = .pushWcfg) (h : s.pendingCfg = .val c) : Effect s (sendConfig c s)
  | armed (c : Word) (hp : s.phase = .kickTest) (h : s.curCfg = .val c) :
      Effect s (sendConfig (withTm s.params c) s)
  | released (c : Word) (hp : s.phase = .stxClr) (h : s.curCfg = .val c) :
      Effect s (sendConfig (withoutTm s.params c) s)
  | sent (w : Word) (h : IsOtherWord s.params w) : Effect s (xfer w s)
  | dequeued (hp : s.phase = .kickDeq ∨ s.phase = .stxDeq) : Effect s (deq s)

/-- `t` is reached from `s` by one effect and quiet operations after it. -/
def EffectThenQuiet (s t : State) : Prop := ∃ u, Effect s u ∧ Quiet u t

namespace EffectThenQuiet

variable {s t : State}

theorem quiet (h : Quiet s t) : EffectThenQuiet s t := ⟨s, .none, h⟩

theorem withReg {α : Type} {r : Reg α} {n : RegName} {k : α → State}
    (h : ∀ v, r = .val v → EffectThenQuiet s (k v)) : EffectThenQuiet s (withReg r n s k) := by
  cases r with
  | unw => exact quiet (.takeFault _ s)
  | val v => exact h v rfl

theorem sendsDataWord {b : Byte} {k : Word → State} (h : ∀ w, Quiet (sendData w s) (k w)) :
    EffectThenQuiet s (withDataWord b s k) :=
  withReg fun _ _ => withReg fun _ _ => ⟨_, .sent _ (.inr (.inl ⟨b, _, rfl⟩)), h _⟩

/-- Every micro-step has one effect, and is quiet after it. -/
theorem microStep (s : State) : EffectThenQuiet s (microStep s.phase s) := by
  unfold Machine.microStep
  have rcfg := Effect.sent (s := s) _ (.inl rfl)
  have rxen := Effect.sent (s := s) _ (.inr (.inr (.inl rfl)))
  have probe := Effect.sent (s := s) _ (.inr (.inr (.inr rfl)))
  cases hp : s.phase with
  | idle => exact quiet {}
  | pushWcfg => exact withReg fun c h => ⟨_, .pushed c hp h, {}⟩
  | pushRcfg =>
    refine withReg fun c h => ⟨_, rcfg, ?_⟩
    dsimp only
    split
    · exact {}
    · exact .trans {} (.complete ..)
  | pushRxen => exact ⟨_, rxen, .complete ..⟩
  | kickTest =>
    refine withReg fun c h => ?_
    dsimp only
    split
    · exact quiet (.complete ..)
    · refine ⟨_, .armed c hp h, ?_⟩
      split
      · exact {}
      · exact .trans {} (.complete ..)
  | kickDeq =>
    refine ⟨_, .dequeued (.inl hp), ?_⟩
    change Quiet _ (microKickDeq s)
    rcases microKickDeq_cases s with ⟨-, e⟩ | ⟨b, bs, -, e⟩ <;> rw [e]
    · exact .complete ..
    · exact {}
  | kickWdata => exact withReg fun b _ => sendsDataWord fun w => .complete ..
  | dispProbe =>
    refine ⟨_, probe, ?_⟩
    change Quiet _ (microDispProbe s)
    rcases microDispProbe_cases s with ⟨-, e⟩ | ⟨-, -, e⟩ | ⟨-, -, e⟩ <;> rw [e] <;> exact {}
  | dispRx => exact withReg fun v _ => quiet (.trans (.deliver ..) {})
  | stxDeq =>
    refine ⟨_, .dequeued (.inr hp), ?_⟩
    change Quiet _ (microStxDeq s)
    rcases microStxDeq_cases s with ⟨-, e⟩ | ⟨b, bs, -, e⟩ <;> rw [e] <;> exact {}
  | stxWdata => exact withReg fun b _ => sendsDataWord fun w => {}
  | stxClr =>
    exact withReg fun d _ => withReg fun c h =>
      ⟨_, .released c hp h, .trans {} (.log _ (.waitBegin d) nofun)⟩
  | stxWait =>
    refine withReg fun d _ => withReg fun us _ => ?_
    split
    · exact quiet {}
    · exact quiet (.trans {} (.log _ .waitEnd nofun))
  | stxRxen => exact ⟨_, rxen, {}⟩

end EffectThenQuiet

/-! ### Who changes the queue and `cur_cfg` (R12, R19, R87, R115) -/

theorem enq_curCfg (b : Byte) (s : State) : (enq b s).curCfg = s.curCfg := by
  unfold enq; split <;> rfl

/-- Which instruction may run the micro-step of a phase that changes the queue or `cur_cfg`, and from which phase. -/
theorem Enters.of_phase {i : Instr} {s u : State} (h : Enters i s u) :
    (u.phase = .pushWcfg → i = .pushConfig ∧ (s.phase = .idle ∨ s.phase = .pushWcfg)) ∧
    (u.phase = .kickTest → i = .kick ∧ (s.phase = .idle ∨ s.phase = .kickTest)) ∧
    (u.phase = .stxClr → i = .serviceTx ∧ s.phase = .stxClr) ∧
    (u.phase = .kickDeq → s.phase = .kickDeq ∧ (i = .kick ∨ i = .dequeue)) ∧
    (u.phase = .stxDeq → s.phase = .stxDeq ∧ (i = .serviceTx ∨ i = .dequeue)) := by
  cases h with
  | inProgress h =>
    refine ⟨fun e => ?_, fun e => ?_, fun e => ?_, fun e => ?_, fun e => ?_⟩ <;>
      (rw [e] at h; injection h with h; simp [e, ← h])
  | dequeue h => rcases h with h | h <;> simp [h]
  | push h => simp [h]
  | kick h => simp [h]
  | dispatch h => simp [enterDispatch]

/-- Settles O33: of an instruction's operations only `enq` and the effect `dequeued` change the queue. -/
theorem onlyQueueOperationsChangeTheQueue : Obligations.OnlyQueueOperationsChangeTheQueue := by
  intro i s t e changed
  cases exec_ran e with
  | waited => exact absurd rfl changed
  | refused op ops k => exact absurd (Quiet.refuse op ops k s).txq changed
  | answered => exact absurd rfl changed
  | applied => exact absurd rfl changed
  | sentConfig => exact absurd rfl changed
  | sent => exact absurd rfl changed
  | sentAndKept => exact absurd rfl changed
  | enqueued b =>
    refine .inl ⟨b, rfl, ?_⟩
    by_cases full : s.txq.length = (s.params.qcap : Nat)
    · exact absurd (by rw [enq_full b s full]; rfl) changed
    · rw [enq_room b s full]; rfl
  | @micro _ _ u h =>
    have before := (Quiet.enters h).txq
    obtain ⟨v, effect, after⟩ := EffectThenQuiet.microStep u
    rw [after.txq, ← before] at changed
    cases effect with
    | none | pushed | armed | released | sent => exact absurd rfl changed
    | dequeued hp =>
      obtain ⟨-, -, -, kick, stx⟩ := h.of_phase
      cases hq : u.txq with
      | nil => simp [hq] at changed
      | cons b bs => exact .inr ⟨b, by rw [after.txq, ← before]; simp [hq], hp.imp kick stx⟩

/-- Settles O34: of an instruction's operations only the three effects that send a WRITE_CONFIG word, and that
word itself, change `cur_cfg`. -/
theorem onlyThreePlacesWriteCurCfg : Obligations.OnlyThreePlacesWriteCurCfg := by
  intro i s t e changed
  cases exec_ran e with
  | waited => exact absurd rfl changed
  | refused op ops k => exact absurd (Quiet.refuse op ops k s).curCfg changed
  | answered => exact absurd rfl changed
  | applied => exact absurd rfl changed
  | sent => exact absurd rfl changed
  | sentAndKept => exact absurd rfl changed
  | enqueued b => exact absurd (enq_curCfg b s) changed
  | sentConfig => exact .inr (.inr (.inr ⟨_, _, _, _, _, _, _, _, _, _, _, rfl⟩))
  | @micro _ _ u h =>
    have before := Quiet.enters h
    obtain ⟨v, effect, after⟩ := EffectThenQuiet.microStep u
    obtain ⟨push, kick, stx, -, -⟩ := h.of_phase
    cases effect with
    | none | sent | dequeued => exact absurd (after.curCfg.trans before.curCfg) changed
    | pushed c hp hc =>
      obtain ⟨hi, hs⟩ := push hp
      exact .inl ⟨hi, hs, by rw [after.curCfg, ← before.pendingCfg, hc]; rfl⟩
    | armed c hp hc =>
      obtain ⟨hi, hs⟩ := kick hp
      exact .inr (.inl ⟨hi, hs, c, before.curCfg ▸ hc, by rw [after.curCfg, ← before.params]; rfl⟩)
    | released c hp hc =>
      obtain ⟨hi, hs⟩ := stx hp
      exact .inr (.inr (.inl ⟨hi, hs, c, before.curCfg ▸ hc, by rw [after.curCfg, ← before.params]; rfl⟩))

/-! ### A step, from what instructions keep -/

/-- Every request-format instruction and every refusal, and every move of the Host and the IRQ source, keeps `P`. -/
structure KeptByAgents (P : State → Prop) : Prop where
  exec : ∀ i s t, formatOf i = .request → P s → exec i s = .next t → P t
  refused : ∀ op s, P s → P (refusedRequest op .noOperands (.refusedOp op) s)
  irqEdge : ∀ s, P s → P (irqEdge s)
  env : ∀ (v : Env) s, P s → P { s with env := v }
  hostReq : ∀ (r : Option Request) s, P s → P { s with hostReq := r }
  host : ∀ (a : HostAgent) s, P s → P { s with host := a }

theorem formatOf_of_phaseOp {p : Phase} {i : Instr} (h : phaseOp p = some i) : formatOf i = .request := by
  cases p <;> cases h <;> rfl

theorem formatOf_decodeRequest (r : Request) : formatOf (decodeRequest r) = .request := by
  rw [decodeRequest]
  simp only [apply_ite formatOf]
  simp only [formatOf, ite_self]

namespace KeptByAgents

variable {P : State → Prop} {s t : State}

theorem sequencer (K : KeptByAgents P) {pick : Pick} (h : P s) (e : sequencerMove pick s = .next t) :
    P t := by
  rcases sequencerMove_cases e with
    ⟨i, hi, e⟩ | ⟨-, -, e⟩ | ⟨r, -, -, -, e⟩ | ⟨r, -, -, -, rfl⟩ | ⟨-, -, -, rfl⟩
  · exact K.exec i _ _ (formatOf_of_phaseOp hi) h e
  · exact K.exec _ _ _ rfl h e
  · exact K.exec _ _ _ (formatOf_decodeRequest r) (K.hostReq none _ h) e
  · exact K.refused _ _ (K.hostReq none _ h)
  · exact h

theorem host_move (K : KeptByAgents P) (h : P s) (e : hostMove s = .next t) : P t := by
  rcases hostMove_cases e with rfl | ⟨c, a, -, -, ⟨q, b, v, rfl⟩ | ⟨b, a', rfl⟩ | ⟨-, rfl⟩⟩
  · exact h
  · exact K.hostReq q _ (K.host b _ (K.env v _ h))
  · exact K.host a' _ (K.exec (.enqueue b) _ _ rfl (K.host a _ h) rfl)
  · exact K.irqEdge _ (K.host a _ h)

/-- A step with no word on the transfer port keeps `P`, unless time passes or the reset event happens. -/
theorem step (K : KeptByAgents P) (h : P s) (hp : s.portOut = none) (e : step s = .next t) :
    P t ∨ (∃ ticks, nextMove s.env = .timeBase ticks ∧ t = timePasses ticks (takeMove s)) ∨
      nextMove s.env = .reset ∧ t = resetEvent (takeMove s) := by
  rw [step_move _ s hp rfl] at e
  have h' : P (takeMove s) := K.env _ _ h
  cases hm : nextMove s.env <;> rw [hm] at e
  case sequencer pick => exact .inl (K.sequencer h' e)
  case host => exact .inl (K.host_move h' e)
  case irqSource => injection e with e; exact .inl (e ▸ K.irqEdge _ h')
  case timeBase ticks => injection e with e; exact .inr (.inl ⟨ticks, rfl, e.symm⟩)
  case reset => injection e with e; exact .inr (.inr ⟨rfl, e.symm⟩)

end KeptByAgents

/-! ### The words of the default layout (R13, R82) -/

section

variable {p : Params} (h : DefaultLayout p) {w : Word}
include h

theorem IsConfigWord.default (hw : IsConfigWord p w) : ∃ index l st pe, w = defaultConfigWord index l st pe := by
  obtain ⟨baud, d7, st2, m, rfl⟩ := hw
  exact ⟨_, _, _, _, configWord_default h baud d7 st2 m⟩

theorem IsConfigWord.withoutTm (hw : IsConfigWord p w) : withoutTm p w = w := by
  obtain ⟨index, l, st, pe, rfl⟩ := hw.default h
  rw [Machine.withoutTm, tmMask_default h]
  exact (defaultConfigWord_tm index l st pe).2

theorem IsArmedWord.withoutTm (hw : IsArmedWord p w) : IsConfigWord p (withoutTm p w) := by
  obtain ⟨c, hc, rfl⟩ := hw
  obtain ⟨index, l, st, pe, rfl⟩ := hc.default h
  rw [Machine.withoutTm, withTm, tmMask_default h, (defaultConfigWord_tm index l st pe).1]
  exact hc

theorem wordClass_config (hw : IsConfigWord p w ∨ IsArmedWord p w) : wordClass p w = .writeConfig := by
  rcases hw with hw | ⟨c, hc, rfl⟩
  · obtain ⟨index, l, st, pe, rfl⟩ := hw.default h
    exact (wordClass_defaultConfigWord h index l st pe).1
  · obtain ⟨index, l, st, pe, rfl⟩ := hc.default h
    rw [withTm, tmMask_default h]
    exact (wordClass_defaultConfigWord h index l st pe).2

theorem dataWord_mark (b : Byte) (m : ParMode) : (dataWord p b m).extractLsb' 14 2 = 2 := by
  rw [dataWord_default h]
  have flag (f : Bool) (k : Word) (hk : k.extractLsb' 14 2 = 0) : (flagBits f k).extractLsb' 14 2 = 0 := by
    cases f
    · show (0 : Word).extractLsb' 14 2 = 0
      decide
    · exact hk
  have byte : (b.setWidth 16 : Word).extractLsb' 14 2 = 0 := by
    ext j hj
    interval_cases j <;> simp
  simp [BitVec.extractLsb'_or, flag, byte]

theorem IsOtherWord.wordClass_ne (hw : IsOtherWord p w) : wordClass p w ≠ .writeConfig := by
  rw [wordClass_default h]
  rcases hw with rfl | ⟨b, m, rfl⟩ | rfl | rfl
  · rw [rcfgWord_default h]; decide
  · rw [dataWord_mark h]; decide
  · rw [rxenWord_default h]; decide
  · rw [probeWord_default h]; decide

end

/-! ### `ConfigInv` (R35, R82) -/

namespace ConfigInv

variable {s t : State}

theorem quiet (H : ConfigInv s) (q : Quiet s t) : ConfigInv t := by
  obtain ⟨layout, port, pending, cur, last, sent⟩ := H
  unfold ConfigInv
  rw [q.params, q.portOut, q.pendingCfg, q.curCfg, q.last]
  exact ⟨layout, port, pending, cur, last, fun w r h => sent w r (q.sent w r h)⟩

theorem sendConfig (H : ConfigInv s) {w : Word} (hw : IsConfigWord s.params w ∨ IsArmedWord s.params w) :
    ConfigInv (sendConfig w s) := by
  obtain ⟨layout, port, pending, -, -, sent⟩ := H
  refine ⟨layout, port, pending, fun v hv => ?_, ?_, fun v r hv => ?_⟩
  · injection hv with hv
    exact hv ▸ hw
  · exact (lastConfigSent_append_xfer ..).trans (if_pos (wordClass_config layout hw))
  · rcases List.mem_append.1 hv with hv | hv
    · exact sent v r hv
    · injection List.mem_singleton.1 hv with hv
      rw [hv]
      exact or_assoc.1 (.inl hw)

theorem xfer (H : ConfigInv s) {w : Word} (hw : IsOtherWord s.params w) : ConfigInv (xfer w s) := by
  obtain ⟨layout, port, pending, cur, last, sent⟩ := H
  refine ⟨layout, port, pending, cur, ?_, fun v r hv => ?_⟩
  · exact ((lastConfigSent_append_xfer ..).trans (if_neg (hw.wordClass_ne layout))).trans last
  · rcases List.mem_append.1 hv with hv | hv
    · exact sent v r hv
    · injection List.mem_singleton.1 hv with hv
      rw [hv]
      exact .inr (.inr hw)

theorem log (H : ConfigInv s) {e : Event} (he : ∀ w r, e ≠ .xfer w r) : ConfigInv (logEvent e s) :=
  H.quiet (.log s e he)

theorem deq (H : ConfigInv s) : ConfigInv (deq s) :=
  log (s := { s with txq := s.txq.tail }) H nofun

theorem enq (H : ConfigInv s) (b : Byte) : ConfigInv (enq b s) := by
  unfold Machine.enq
  split
  · exact log (s := { s with qAnswer := some .full }) H nofun
  · exact log (s := { s with txq := s.txq ++ [b], qAnswer := some .ok }) H nofun

theorem effect (H : ConfigInv s) (h : Effect s t) : ConfigInv t := by
  have ⟨layout, _, pending, cur, _, _⟩ := H
  cases h with
  | none => exact H
  | pushed c hp h => exact H.sendConfig (.inl (pending c h))
  | armed c hp h =>
    refine H.sendConfig (.inr ?_)
    rcases cur c h with h | ⟨d, hd, rfl⟩
    · exact ⟨c, h, rfl⟩
    · exact ⟨d, hd, by simp [withTm, BitVec.or_assoc]⟩
  | released c hp h =>
    refine H.sendConfig (.inl ?_)
    rcases cur c h with h | h
    · rwa [h.withoutTm layout]
    · exact h.withoutTm layout
  | sent w h => exact H.xfer h
  | dequeued => exact H.deq

theorem ran {i : Instr} (hf : formatOf i = .request) (H : ConfigInv s) (e : Ran i s t) : ConfigInv t := by
  cases e with
  | waited => exact H
  | refused op ops k => exact H.quiet (.refuse op ops k s)
  | answered op ops r => exact H.quiet (.trans (.startRequest op ops s) (.complete op r _))
  | applied baud d7 st2 par m =>
    obtain ⟨layout, port, -, kept⟩ := H.quiet (.startRequest 0x7 (.line baud d7 st2 par) s)
    refine quiet (s := applyRegs baud d7 st2 m _) ⟨layout, port, fun w h => ?_, kept⟩ (.complete ..)
    injection h with h
    exact ⟨baud, d7, st2, m, h.symm⟩
  | enqueued b => exact H.enq b
  | micro h =>
    obtain ⟨v, effect, after⟩ := EffectThenQuiet.microStep _
    exact ((H.quiet (.enters h)).effect effect).quiet after
  | sentConfig => cases hf
  | sent hw | sentAndKept hw => cases hf.symm.trans hw

theorem keptByAgents : KeptByAgents ConfigInv where
  exec _ _ _ hf H e := H.ran hf (exec_ran e)
  refused _ _ H := H.ran (i := .reserved0) rfl (.refusedRequest rfl ..)
  irqEdge s H := log (s := { s with irqPending := true }) H nofun
  env _ _ H := H
  hostReq _ _ H := H
  host _ _ H := H

theorem reset (h : DefaultLayout s.params) : ConfigInv (resetEvent s) :=
  ⟨h, rfl, nofun, nofun, rfl, nofun⟩

theorem timePasses (H : ConfigInv s) (ticks : Nat) : ConfigInv (timePasses ticks s) := by
  unfold Machine.timePasses
  split
  · exact H
  · exact H

end ConfigInv

/-- Settles O36: instructions send only the effects' words, and neither time nor the reset event sends any. -/
theorem configurationWordsStayLegal : Obligations.ConfigurationWordsStayLegal := by
  intro s t H e
  have ⟨layout, port, _⟩ := H
  rcases ConfigInv.keptByAgents.step H port e with h | ⟨ticks, -, rfl⟩ | ⟨-, rfl⟩
  · exact h
  · exact ConfigInv.timePasses (s := takeMove s) H ticks
  · exact ConfigInv.reset (s := takeMove s) layout

theorem IsConfigWord.constantBits {p : Params} (h : DefaultLayout p) {w : Word} (hw : IsConfigWord p w) :
    w &&& 0xFF80 = 0xC400 := by
  obtain ⟨index, l, st, pe, rfl⟩ := hw.default h
  exact (defaultConfigWord_bits index l st pe).1

/-- Settles O37: the masked bits of a configuration word are constant, and the mask for `cur_cfg` leaves TM out. -/
theorem configurationConstantBitsHold : Obligations.ConfigurationConstantBitsHold := by
  intro s w ⟨layout, _, pending, cur, _, _⟩
  have plain {c : Word} (hc : IsConfigWord s.params c) : c &&& 0xF780 = 0xC400 := by
    calc c &&& 0xF780 = c &&& 0xFF80 &&& 0xF780 := by rw [BitVec.and_assoc]; rfl
      _ = 0xC400 := by rw [hc.constantBits layout]; decide
  refine ⟨fun h => ?_, fun h => ?_⟩
  · rcases h with h | h
    · rcases cur w h with hw | ⟨c, hc, rfl⟩
      · exact plain hw
      · rw [withTm, tmMask_default layout, BitVec.and_or_distrib_right, plain hc]
        decide
    · exact plain (pending w h)
  · calc w &&& 0x0800 = w &&& 0xFF80 &&& 0x0800 := by rw [BitVec.and_assoc]; rfl
      _ = 0 := by rw [(pending w h).constantBits layout]; decide

/-! ### `PhaseInv` (R22, R24, R25) -/

/-- What `PhaseInv` asks of a phase's own registers. -/
def Prepared (p : Phase) (s : State) : Prop :=
  match p with
  | .idle => s.tResp = .unw ∧ s.tByte = .unw
  | .stxDeq | .stxClr => s.tResp.isVal
  | .pushWcfg | .kickTest | .dispProbe => False
  | .pushRcfg => s.curCfg.isVal ∧ s.curCfg = s.pendingCfg
  | .pushRxen => s.curCfg.isVal ∧ s.curCfg = s.pendingCfg ∧ s.tResp.isVal
  | .kickDeq => s.curCfg.isVal ∧ s.tResp.isVal
  | .kickWdata => s.curCfg.isVal ∧ s.tResp.isVal ∧ s.tByte.isVal
  | .dispRx => s.tResp.isVal
  | .stxWdata => s.tResp.isVal ∧ s.tByte.isVal
  | .stxWait | .stxRxen => s.curCfg.isVal ∧ s.tResp.isVal

/-- What `PhaseInv` asks whatever the phase is, but STX_WAIT, where alone `wait_elapsed` is written. -/
def Steady (s : State) : Prop :=
  s.portOut = none ∧ DefaultLayout s.params ∧ WrittenTogether s
    ∧ (∀ d, s.delayUs = .val d → 43 ≤ d.toNat ∧ d.toNat ≤ 16666)
    ∧ s.waitElapsed = .unw ∧ s.tickRest < (s.params.tickHz : Nat)

theorem phaseInv_iff {s : State} (hp : s.phase ≠ .stxWait) :
    PhaseInv s ↔ Steady s ∧ Prepared s.phase s := by
  have wait : (s.waitElapsed.isVal ↔ s.phase = .stxWait) ↔ s.waitElapsed = .unw := by
    cases s.waitElapsed <;> simp [hp]
  constructor
  · rintro ⟨port, layout, together, delay, w, rest, need⟩
    exact ⟨⟨port, layout, together, delay, wait.1 w, rest⟩, need⟩
  · rintro ⟨⟨port, layout, together, delay, w, rest⟩, need⟩
    exact ⟨port, layout, together, delay, wait.2 w, rest, need⟩

namespace Steady

variable {s : State}

theorem setPhase (H : Steady s) {p : Phase} (need : Prepared p s) (hp : p ≠ .stxWait := by decide) :
    PhaseInv (setPhase p s) :=
  (phaseInv_iff hp).2 ⟨H, by cases p <;> exact need⟩

theorem endOperation (H : Steady s) : PhaseInv (endOperation s) :=
  setPhase (s := clearTemps s) H ⟨rfl, rfl⟩

theorem complete (H : Steady s) (op : BitVec 4) (r : Result) : PhaseInv (complete op r s) :=
  H.endOperation

theorem takeFault (H : Steady s) (k : FaultKind) : PhaseInv (takeFault k s) := by
  rcases takeFault_cases k s with ⟨op, -, e⟩ | ⟨-, e⟩ <;> rw [e]
  · exact complete (s := raise k op s) H op _
  · exact endOperation (s := raise k 0xC s) H

theorem withReg {α : Type} {r : Reg α} {n : RegName} {k : α → State} (H : Steady s)
    (hk : ∀ v, r = .val v → PhaseInv (k v)) : PhaseInv (withReg r n s k) := by
  cases r with
  | unw => exact H.takeFault _
  | val v => exact hk v rfl

/-- Once APPLY_CONFIG has written its registers, `cur_cfg` may be written. -/
theorem sendConfig (H : Steady s) (h : s.pendingCfg.isVal) (c : Word) : Steady (sendConfig c s) := by
  obtain ⟨port, layout, ⟨delay, en, odd, -⟩, kept⟩ := H
  exact ⟨port, layout, ⟨delay, en, odd, fun _ => h⟩, kept⟩

theorem pending_of_cur (H : Steady s) {c : Word} (h : s.curCfg = .val c) : s.pendingCfg.isVal := by
  obtain ⟨-, -, ⟨-, -, -, cur⟩, -⟩ := H
  exact cur (h ▸ rfl)

theorem applyRegs (H : Steady s) (baud : BitVec 32) (d7 st2 : BitVec 1) (m : ParMode) :
    Steady (applyRegs baud d7 st2 m s) := by
  obtain ⟨port, layout, -, -, kept⟩ := H
  refine ⟨port, layout, ⟨rfl, rfl, rfl, fun _ => rfl⟩, fun d h => ?_, kept⟩
  have quotient := delayNum_div_effBaud layout baud
  injection h with h
  rw [← h, delayOfBaud_toNat (by omega)]
  exact quotient

/-! ### The micro-steps -/

theorem pushWcfg (H : Steady s) : PhaseInv (microPushWcfg s) :=
  H.withReg fun c h => (H.sendConfig (h ▸ rfl) c).setPhase ⟨rfl, h.symm⟩

theorem pushRcfg (H : Steady s) (need : Prepared .pushRcfg s) : PhaseInv (microPushRcfg s) := by
  have sent : Steady (sendAndKeep s.params.rcfgWord s) := H
  refine H.withReg fun c h => ?_
  dsimp only
  split
  · exact sent.setPhase ⟨need.1, need.2, rfl⟩
  · exact sent.complete ..

theorem pushRxen (H : Steady s) : PhaseInv (microPushRxen s) :=
  complete (s := sendData s.params.rxenWord s) H ..

theorem kickTest (H : Steady s) : PhaseInv (microKickTest s) := by
  refine H.withReg fun c h => ?_
  have armed : Steady { Machine.sendConfig (withTm s.params c) s with
      tResp := .val (xferResp (withTm s.params c) s) } := H.sendConfig (H.pending_of_cur h) _
  dsimp only
  split
  · exact H.complete ..
  · split
    · exact armed.setPhase ⟨rfl, rfl⟩
    · exact armed.complete ..

theorem kickDeq (H : Steady s) (need : Prepared .kickDeq s) : PhaseInv (microKickDeq s) := by
  rcases microKickDeq_cases s with ⟨-, e⟩ | ⟨b, bs, -, e⟩ <;> rw [e]
  · exact complete (s := deq s) H ..
  · exact setPhase (s := { deq s with tByte := .val b }) H ⟨need.1, need.2, rfl⟩

theorem kickWdata (H : Steady s) : PhaseInv (microKickWdata s) :=
  H.withReg fun _ _ => H.withReg fun _ _ => H.withReg fun _ _ => complete (s := sendData _ s) H ..

theorem dispProbe (H : Steady s) : PhaseInv (microDispProbe s) := by
  have sent : Steady (sendAndKeep s.params.probeWord s) := H
  rcases microDispProbe_cases s with ⟨-, e⟩ | ⟨-, -, e⟩ | ⟨-, -, e⟩ <;> rw [e]
  · exact sent.setPhase rfl
  · exact sent.setPhase rfl
  · exact sent.endOperation

theorem dispRx (H : Steady s) : PhaseInv (microDispRx s) :=
  H.withReg fun _ _ => endOperation (s := deliver _ s) H

theorem stxDeq (H : Steady s) (need : Prepared .stxDeq s) : PhaseInv (microStxDeq s) := by
  rcases microStxDeq_cases s with ⟨-, e⟩ | ⟨b, bs, -, e⟩ <;> rw [e]
  · exact setPhase (s := deq s) H need
  · exact setPhase (s := { deq s with tByte := .val b }) H ⟨need, rfl⟩

theorem stxWdata (H : Steady s) : PhaseInv (microStxWdata s) :=
  H.withReg fun _ _ => H.withReg fun _ _ => H.withReg fun _ _ => endOperation (s := sendData _ s) H

/-- The wait begins: `wait_elapsed` is written as the phase becomes STX_WAIT. -/
theorem stxClr (H : Steady s) (need : Prepared .stxClr s) : PhaseInv (microStxClr s) :=
  H.withReg fun _ _ => H.withReg fun c h => by
    obtain ⟨port, layout, together, delay, -, -⟩ := H.sendConfig (H.pending_of_cur h) (withoutTm s.params c)
    exact ⟨port, layout, together, delay, ⟨fun _ => rfl, fun _ => rfl⟩, s.params.tickHz.2, rfl, need⟩

theorem stxRxen (H : Steady s) : PhaseInv (microStxRxen s) :=
  endOperation (s := sendData s.params.rxenWord s) H

end Steady

namespace PhaseInv

variable {s t u : State}

/-- The wait is held or ends: both registers it reads were written, so it takes no fault. -/
theorem stxWait (H : PhaseInv s) (hp : s.phase = .stxWait) : PhaseInv (microStxWait s) := by
  have ⟨port, layout, together, delay, wait, _, need⟩ := H
  rw [hp] at need
  have ⟨delayW, _, _, pendingW⟩ := together
  rcases microStxWait_cases s with ⟨h, -⟩ | ⟨h, -⟩ | ⟨d, us, -, -, ⟨-, e⟩ | ⟨-, e⟩⟩
  · rw [pendingW need.1, h] at delayW
    cases delayW
  · have := wait.2 hp
    rw [h] at this
    cases this
  · rwa [e]
  · rw [e]
    have ended : Steady { s with waitElapsed := .unw, tickRest := 0 } :=
      ⟨port, layout, together, delay, rfl, s.params.tickHz.2⟩
    exact ended.setPhase (p := .stxRxen) need

/-- A phase that is rested in runs its micro-step. -/
theorem microStep (H : PhaseInv s) : PhaseInv (microStep s.phase s) := by
  by_cases hw : s.phase = .stxWait
  · rw [hw]
    exact H.stxWait hw
  obtain ⟨steady, need⟩ := (phaseInv_iff hw).1 H
  cases hp : s.phase <;> rw [hp] at need
  case idle => exact H
  case pushWcfg => exact need.elim
  case pushRcfg => exact steady.pushRcfg need
  case pushRxen => exact steady.pushRxen
  case kickTest => exact need.elim
  case kickDeq => exact steady.kickDeq need
  case kickWdata => exact steady.kickWdata
  case dispProbe => exact need.elim
  case dispRx => exact steady.dispRx
  case stxDeq => exact steady.stxDeq need
  case stxWdata => exact steady.stxWdata
  case stxClr => exact steady.stxClr need
  case stxWait => exact absurd hp hw
  case stxRxen => exact steady.stxRxen

theorem steady_of_idle (H : PhaseInv s) (h : s.phase = .idle) : Steady s :=
  ((phaseInv_iff (by simp [h])).1 H).1

theorem refuse (H : PhaseInv s) (h : s.phase = .idle) (op : BitVec 4) (ops : Operands) (k : FaultKind) :
    PhaseInv (refuse op ops k s) := by
  rw [refuse_eq op ops k s h]
  exact H

theorem enq (H : PhaseInv s) (b : Byte) : PhaseInv (enq b s) := by
  unfold Machine.enq
  split
  · exact H
  · exact H

/-- An operation that runs a micro-step rested in its phase, or starts from the registers of IDLE. -/
theorem micro {i : Instr} (H : PhaseInv s) (h : Enters i s u) : PhaseInv (Machine.microStep u.phase u) := by
  cases h with
  | inProgress | dequeue => exact H.microStep
  | push h => exact Steady.pushWcfg (H.steady_of_idle h)
  | kick h => exact Steady.kickTest (H.steady_of_idle h)
  | dispatch h => exact Steady.dispProbe (H.steady_of_idle h)

theorem ran {i : Instr} (hf : formatOf i = .request) (H : PhaseInv s) (e : Ran i s t) : PhaseInv t := by
  cases e with
  | waited => exact H
  | refused op ops k _ h => exact H.refuse h op ops k
  | answered op ops r _ h => exact Steady.complete (s := startRequest op ops s) (H.steady_of_idle h) ..
  | applied baud d7 st2 par m h =>
    exact ((show Steady (startRequest 0x7 (.line baud d7 st2 par) s) from
      H.steady_of_idle h).applyRegs baud d7 st2 m).complete ..
  | enqueued b => exact H.enq b
  | micro h => exact H.micro h
  | sentConfig => cases hf
  | sent hw | sentAndKept hw => cases hf.symm.trans hw

theorem keptByAgents : KeptByAgents PhaseInv where
  exec _ _ _ hf H e := H.ran hf (exec_ran e)
  refused _ _ H := H.ran (i := .reserved0) rfl (.refusedRequest rfl ..)
  irqEdge _ H := H
  env _ _ H := H
  hostReq _ _ H := H
  host _ _ H := H

theorem timePasses (H : PhaseInv s) (ticks : Nat) : PhaseInv (timePasses ticks s) := by
  by_cases hp : s.phase = .stxWait
  · obtain ⟨port, layout, together, delay, wait, -, need⟩ := H
    obtain ⟨n, hn⟩ := (isVal_iff _).1 (wait.2 hp)
    rw [timePasses_wait ticks n s hp hn]
    exact ⟨port, layout, together, delay, ⟨fun _ => hp, fun _ => rfl⟩, Nat.mod_lt _ s.params.tickHz.2, need⟩
  · rwa [timePasses_other ticks s hp]

theorem reset (h : DefaultLayout s.params) : PhaseInv (resetEvent s) :=
  Steady.endOperation (s := resetEvent s) ⟨rfl, h, ⟨rfl, rfl, rfl, nofun⟩, nofun, rfl, s.params.tickHz.2⟩

end PhaseInv

/-- Settles O38: instructions leave every phase they rest in prepared, time advances only the wait, and the reset event
rests at IDLE. -/
theorem phasesStayPrepared : Obligations.PhasesStayPrepared := by
  intro s t H e
  have ⟨port, layout, _⟩ := H
  rcases PhaseInv.keptByAgents.step H port e with h | ⟨ticks, -, rfl⟩ | ⟨-, rfl⟩
  · exact h
  · exact PhaseInv.timePasses (s := takeMove s) H ticks
  · exact PhaseInv.reset (s := takeMove s) layout

/-! ### The reset table (R36) -/

/-- Settles O39: reset is the state the reset event of a state with the defaults leaves. -/
theorem invariantsHoldAtReset : Obligations.InvariantsHoldAtReset := by
  have layout : DefaultLayout State.reset.params := rfl
  exact ⟨rfl, Nat.zero_le _, ConfigInv.reset layout, PhaseInv.reset layout, rfl, rfl, rfl, rfl, rfl⟩

/-- Settles O40: each register is read off `State.reset`. -/
theorem resetLeavesTheTable : Obligations.ResetLeavesTheTable :=
  ⟨rfl, rfl, rfl, rfl, rfl, rfl, rfl, rfl, rfl, rfl, rfl, rfl, rfl, rfl, rfl⟩

/-! ### The arbiter and the time base (R22, R23, R32) -/

theorem sequencerMove_busy {s : State} {i : Instr} (hi : phaseOp s.phase = some i) (pick : Pick) :
    sequencerMove pick s = exec i s := by
  rw [sequencerMove, hi]

section

variable {s : State} {pick : Pick} (hi : s.phase = .idle)
include hi

theorem sequencerMove_nothing (hc : chooseStart pick s.irqPending s.hostReq = .nothing) :
    sequencerMove pick s = .next s := by
  simp [sequencerMove, hi, phaseOp, hc]

theorem sequencerMove_dispatch (hc : chooseStart pick s.irqPending s.hostReq = .dispatch) :
    sequencerMove pick s = exec .irqDispatch s := by
  simp [sequencerMove, hi, phaseOp, hc]

theorem sequencerMove_request {r : Request} (hc : chooseStart pick s.irqPending s.hostReq = .request r) :
    sequencerMove pick s = runRequest r { s with hostReq := none } := by
  simp [sequencerMove, hi, phaseOp, hc]

end

/-- Settles O42: each kind of move, and what the arbiter chooses at IDLE. -/
theorem stepRunsTheDecodedInstruction : Obligations.StepRunsTheDecodedInstruction := by
  intro s
  refine ⟨fun w hp => ?_, fun pick i hp hm hi => ?_, fun pick r hp hm hi hr choice h1 h9 => ?_,
    fun pick hp hm hi irq choice => ?_, fun b a hp hm hw hc => step_host_cmd _ a s hp hm hw hc⟩
  · rw [step, stepOnce, hp]
  · rw [step_move _ s hp hm]
    exact sequencerMove_busy (s := takeMove s) hi pick
  · have start : chooseStart pick s.irqPending s.hostReq = .request r := by
      rw [hr]
      exact chooseStart_request pick _ r choice
    rw [step_move _ s hp hm]
    exact (sequencerMove_request (s := takeMove s) hi start).trans (runRequest_of_code r _ h1 h9)
  · have start : chooseStart pick s.irqPending s.hostReq = .dispatch := by
      rw [irq]
      exact chooseStart_dispatch pick _ choice
    rw [step_move _ s hp hm]
    exact sequencerMove_dispatch (s := takeMove s) hi start

/-- Settles O44: with nothing pending the arbiter starts nothing. -/
theorem idleSequencerDoesNothing : Obligations.IdleSequencerDoesNothing := by
  intro s pick hp hm hi irq req
  have start : chooseStart pick s.irqPending s.hostReq = .nothing := by rw [irq, req, chooseStart]
  rw [step_move _ s hp hm]
  exact sequencerMove_nothing (s := takeMove s) hi start

/-- Settles O51: the quotient and the remainder of the ticks by TICK_HZ are what the wait and its rest become. -/
theorem timeBaseAdvancesOnlyTheWait : Obligations.TimeBaseAdvancesOnlyTheWait := by
  intro s ticks hp hm
  rw [step_move _ s hp hm, runMove_timeBase]
  refine ⟨fun n hs hn => ⟨n + (s.tickRest + ticks * 1000000) / s.params.tickHz,
    (s.tickRest + ticks * 1000000) % s.params.tickHz, ?_, Nat.mod_lt _ s.params.tickHz.2, ?_⟩, fun hs => ?_⟩
  · have split := Nat.div_add_mod' (s.tickRest + ticks * 1000000) s.params.tickHz
    rw [Nat.add_mul]
    omega
  · rw [timePasses_wait ticks n (takeMove s) hs hn]
    rfl
  · rw [timePasses_other ticks (takeMove s) hs]
    rfl

/-! ### Operations that wait (R23, R58, R138) -/

/-- Settles O43: what `Ran` allows beside waiting needs one of the phases or the start that the hypotheses rule out. -/
theorem operationsWaitOutsideTheirPhases : Obligations.OperationsWaitOutsideTheirPhases := by
  intro i s request notEnqueue notInProgress notDequeue atIdle
  have notOneStep (h : s.phase = .idle) : oneStep i ≠ true := by
    rcases atIdle h with rfl | rfl | rfl | ⟨rfl, -⟩ <;> decide
  obtain ⟨t, e⟩ := exec_next i s
  rw [e]
  cases exec_ran e with
  | waited => rfl
  | refused _ _ _ hi h | answered _ _ _ hi h => exact absurd hi (notOneStep h)
  | applied _ _ _ _ _ h => exact absurd rfl (notOneStep h)
  | enqueued b => exact absurd rfl (notEnqueue b)
  | sentConfig => cases request
  | sent hw | sentAndKept hw => cases request.symm.trans hw
  | micro enters =>
    cases enters with
    | inProgress h => exact absurd h notInProgress
    | dequeue h =>
      obtain ⟨hk, hs⟩ := notDequeue rfl
      exact (h.elim hk hs).elim
    | push h | kick h => simpa using atIdle h
    | dispatch h hi => simpa [hi] using atIdle h

/-! ### What is only ever added to (R27, R28) -/

/-- What the shared operations keep, every instruction keeps; the agents' own changes are asked of `P` one by one. -/
theorem KeptByOps.byAgents {P : State → Prop} (K : KeptByOps P)
    (edge : ∀ s, P s → P (irqEdge s)) (env : ∀ (v : Env) s, P s → P { s with env := v })
    (hostReq : ∀ (r : Option Request) s, P s → P { s with hostReq := r })
    (host : ∀ (a : HostAgent) s, P s → P { s with host := a }) : KeptByAgents P where
  exec i s t _ h e := exec_keeps K i s t h e
  refused op s h := K.refused op _ _ s h
  irqEdge := edge
  env := env
  hostReq := hostReq
  host := host

/-- Nothing of the history and the faults of `s` is lost. -/
def Extends (s t : State) : Prop := s.history <+: t.history ∧ ∀ e ∈ s.faults, e ∈ t.faults

theorem mem_insertFault_of_mem {e f : FaultEntry} {fs : List FaultEntry} (h : f ∈ fs) :
    f ∈ insertFault e fs := by
  unfold insertFault
  split
  · exact h
  · exact List.mem_append_left _ h

namespace Extends

variable {s t : State}

theorem refl (s : State) : Extends s s := ⟨List.prefix_refl _, fun _ h => h⟩

theorem log (h : Extends s t) (e : Event) : Extends s (logEvent e t) :=
  ⟨h.1.trans (List.prefix_append ..), h.2⟩

theorem enq (h : Extends s t) (b : Byte) : Extends s (enq b t) := by
  unfold Machine.enq
  split
  · exact h.log _
  · exact h.log _

theorem raise (h : Extends s t) (k : FaultKind) (op : BitVec 4) : Extends s (raise k op t) :=
  ⟨(h.log _).1, fun e he => mem_insertFault_of_mem (h.2 e he)⟩

theorem keptByOps (s : State) : KeptByOps (Extends s) where
  req _ _ _ h := h.log _
  done _ _ _ h := h.log _
  raise k op _ h := h.raise k op
  setPhase _ _ h := h
  clearTemps _ h := h
  keepByte _ _ h := h
  keepResp _ _ h := h
  sendConfig _ _ h := h.log _
  xfer _ _ h := h.log _
  enq b _ h := h.enq b
  deq _ h := h.log _
  deliver _ _ h := h.log _
  apply _ _ _ _ _ h := h
  beginWait _ _ h := h.log _
  endWait _ h := h.log _
  takeEdge _ h := h

theorem keptByAgents (s : State) : KeptByAgents (Extends s) :=
  (keptByOps s).byAgents (fun _ h => h.log _) (fun _ _ h => h) (fun _ _ h => h) fun _ _ h => h

theorem timePasses (h : Extends s t) (ticks : Nat) : Extends s (timePasses ticks t) := by
  unfold Machine.timePasses
  split
  · exact h
  · exact h

end Extends

/-- Settles O49: every operation extends the history and the set of faults. -/
theorem historyAndFaultsOnlyGrow : Obligations.HistoryAndFaultsOnlyGrow := by
  intro s t e noReset
  have start : Extends s s := .refl s
  rcases step_cases e with ⟨w, -, e⟩ | ⟨hp, -⟩
  · exact exec_keeps (Extends.keptByOps s) _ { s with portOut := none } t start e
  · rcases (Extends.keptByAgents s).step start hp e with h | ⟨ticks, -, rfl⟩ | ⟨hm, -⟩
    · exact h
    · exact Extends.timePasses (t := takeMove s) start ticks
    · exact absurd hm (noReset hp)

/-! ### The wait (R25) -/

/-- Where `wait_elapsed` is written, it is at most `n`. -/
def WaitAtMost (n : Nat) (s : State) : Prop := ∀ m, s.waitElapsed = .val m → m ≤ n

namespace WaitAtMost

theorem enq {n : Nat} {s : State} (h : WaitAtMost n s) (b : Byte) : WaitAtMost n (enq b s) := by
  unfold Machine.enq
  split
  · exact h
  · exact h

theorem keptByOps (n : Nat) : KeptByOps (WaitAtMost n) where
  req _ _ _ h := h
  done _ _ _ h := h
  raise _ _ _ h := h
  setPhase _ _ h := h
  clearTemps _ h := h
  keepByte _ _ h := h
  keepResp _ _ h := h
  sendConfig _ _ h := h
  xfer _ _ h := h
  enq b _ h := h.enq b
  deq _ h := h
  deliver _ _ h := h
  apply _ _ _ _ _ h := h
  beginWait _ _ _ _ e := by injection e with e; exact e ▸ Nat.zero_le n
  endWait _ _ := nofun
  takeEdge _ h := h

theorem keptByAgents (n : Nat) : KeptByAgents (WaitAtMost n) :=
  (keptByOps n).byAgents (fun _ h => h) (fun _ _ h => h) (fun _ _ h => h) fun _ _ h => h

end WaitAtMost

/-- Settles O53: every operation leaves the wait as it is, begins it at 0 or ends it, and the reset event ends it. -/
theorem onlyTheTimeBaseIncreasesTheWait : Obligations.OnlyTheTimeBaseIncreasesTheWait := by
  intro s t n m e hn hm increased
  have start : WaitAtMost n s := fun k hk => by rw [hn] at hk; injection hk with hk; exact hk.ge
  have notKept (h : WaitAtMost n t) : False := absurd (h m hm) (Nat.not_le.2 increased)
  rcases step_cases e with ⟨w, -, e⟩ | ⟨hp, -⟩
  · exact (notKept (exec_keeps (WaitAtMost.keptByOps n) _ { s with portOut := none } t start e)).elim
  · rcases (WaitAtMost.keptByAgents n).step start hp e with h | ⟨ticks, ht, rfl⟩ | ⟨-, rfl⟩
    · exact (notKept h).elim
    · refine ⟨hp, ticks, ht, ?_⟩
      by_cases wait : s.phase = .stxWait
      · rw [timePasses_wait ticks n (takeMove s) wait hn] at hm
        injection hm with hm
        exact hm.symm
      · rw [timePasses_other ticks (takeMove s) wait] at notKept
        exact (notKept start).elim
    · cases hm

/-! ### The Host (R30, R31, R145) -/

theorem enq_irqPending (b : Byte) (s : State) : (enq b s).irqPending = s.irqPending := by
  unfold enq
  split <;> rfl

/-- Settles O56: a command changes the ports and the agents, or is an ENQUEUE or an edge. -/
theorem hostReachesOnlyThePorts : Obligations.HostReachesOnlyThePorts := by
  intro s t e hp hm
  rw [step_move .host s hp hm] at e
  rcases hostMove_cases e with rfl | ⟨c, a, hc, -, ⟨q, b, v, rfl⟩ | ⟨b, a', rfl⟩ | ⟨rfl, rfl⟩⟩
  · exact ⟨rfl, fun h => absurd rfl h⟩
  · exact ⟨rfl, fun h => absurd rfl h⟩
  · refine ⟨?_, fun h => absurd (enq_irqPending b _) h⟩
    unfold enq
    split <;> rfl
  · exact ⟨rfl, fun _ => ⟨a, hc⟩⟩

end Sys2Proof.Machine

/-! The two-byte exchange and the wire words that are exchanged (R53, R56), and what a Sequencer's move does while an operation is in
progress: it runs that operation's next micro-step, and nothing starts (R58, R64, R138). -/

namespace Sys2Proof.Machine

/-! ### The exchange and the wire words (R53, R56) -/

/-- An exchange spends one answer and records one event, and that is its whole effect. -/
theorem xfer_eq (w : Word) (s : State) :
    xfer w s = { s with env := spendAnswer s.env, history := s.history ++ [xferEvent w s.env] } := rfl

/-- Settles O5: the answer decides the response and the outcome recorded. -/
theorem exchangeReturnsTheAnswer : Obligations.ExchangeReturnsTheAnswer := by
  intro w s
  refine ⟨fun h l answer => ?_, fun answer => ?_⟩
  · rw [xferResp, xfer_eq, xferEvent, answer]
    exact ⟨rfl, rfl⟩
  · rw [xferResp, xfer_eq, xferEvent, answer]
    exact ⟨rfl, rfl⟩

/-- Settles O6: each class is one exchange of its encoded word, with its register write before or after it. -/
theorem wireWordsAreExchangedOnce : Obligations.WireWordsAreExchangedOnce := by
  intro s
  refine ⟨fun _ _ _ _ _ _ _ _ _ _ _ => ?writeConfig, fun _ => ?readConfig, fun _ _ _ _ _ => ?writeData,
    fun _ => ?readData⟩
  case writeConfig => rw [exec, execWriteConfig, sendConfig, xfer_eq]
  case readConfig => rw [exec, execReadConfig, sendAndKeep, xfer_eq, xferResp]
  case writeData => rw [exec, execWriteData, sendData, xfer_eq]
  case readData => rw [exec, execReadData, sendAndKeep, xfer_eq, xferResp]

/-! ### The operation in progress (R22, R23) -/

/-- The operation in progress runs the micro-step of its phase. -/
theorem exec_inProgress {s : State} {i : Instr} (hi : phaseOp s.phase = some i) :
    exec i s = .next (microStep s.phase s) := by
  cases hp : s.phase <;> rw [hp] at hi <;> cases hi <;>
    simp only [exec, execPushConfig, execKick, execIrqDispatch, execServiceTx, execServiceRx, hp, microStep]

theorem phaseOp_eq_none_iff {p : Phase} : phaseOp p = none ↔ p = .idle := by
  cases p <;> decide

/-- Away from IDLE the Sequencer's move is the micro-step of the phase. -/
theorem sequencerMove_microStep {s : State} (h : s.phase ≠ .idle) (pick : Pick) :
    sequencerMove pick s = .next (microStep s.phase s) := by
  obtain ⟨i, hi⟩ := Option.ne_none_iff_exists'.1 (mt phaseOp_eq_none_iff.1 h)
  rw [sequencerMove_busy hi, exec_inProgress hi]

/-! ### Nothing starts during an operation (R58, R127, R138) -/

/-- From `s` to `t` no request event was added, and a latched edge and a waiting request were kept. -/
def StartsNothing (s t : State) : Prop :=
  (∃ es, t.history = s.history ++ es ∧ ∀ op ops, .req op ops ∉ es) ∧
    (s.irqPending = true → t.irqPending = true) ∧ ∀ r, s.hostReq = some r → t.hostReq = some r

namespace StartsNothing

variable {s t : State}

theorem refl (s : State) : StartsNothing s s := ⟨⟨[], by simp⟩, id, fun _ => id⟩

theorem log {e : Event} (h : StartsNothing s t) (he : ∀ op ops, .req op ops ≠ e) :
    StartsNothing s (logEvent e t) := by
  obtain ⟨⟨es, ht, hes⟩, kept⟩ := h
  refine ⟨⟨es ++ [e], ?_, fun op ops => ?_⟩, kept⟩
  · rw [logEvent_history, ht, List.append_assoc]
  · simpa using ⟨hes op ops, he op ops⟩

theorem takeFault (h : StartsNothing s t) (k : FaultKind) : StartsNothing s (takeFault k t) := by
  have raised : StartsNothing s (logEvent (.fault k) t) := h.log nofun
  rcases takeFault_cases k t with ⟨op, -, e⟩ | ⟨-, e⟩ <;> rw [e]
  · exact raised.log nofun
  · exact raised

theorem withReg {α : Type} {r : Reg α} {n : RegName} {k : α → State} (h : ∀ v, StartsNothing s (k v)) :
    StartsNothing s (withReg r n s k) := by
  cases r with
  | unw => exact (refl s).takeFault _
  | val v => exact h v

theorem microStep (s : State) : StartsNothing s (microStep s.phase s) := by
  unfold Machine.microStep
  have sent (w : Word) : StartsNothing s (xfer w s) := (refl s).log nofun
  have dequeued : StartsNothing s (deq s) := (refl s).log nofun
  cases s.phase with
  | idle => exact refl s
  | pushWcfg => exact withReg fun c => sent c
  | pushRcfg =>
    refine withReg fun c => ?_
    dsimp only
    split
    · exact sent _
    · exact (sent _).log nofun
  | pushRxen => exact (sent _).log nofun
  | kickTest =>
    refine withReg fun c => ?_
    dsimp only
    split
    · exact (refl s).log nofun
    · split
      · exact sent _
      · exact (sent _).log nofun
  | kickDeq =>
    change StartsNothing s (microKickDeq s)
    unfold microKickDeq
    split
    · exact dequeued
    · exact dequeued.log nofun
  | kickWdata => exact withReg fun b => withReg fun _ => withReg fun _ => (sent _).log nofun
  | dispProbe =>
    change StartsNothing s (microDispProbe s)
    rcases microDispProbe_cases s with ⟨-, e⟩ | ⟨-, -, e⟩ | ⟨-, -, e⟩ <;> rw [e] <;> exact sent _
  | dispRx => exact withReg fun v => (refl s).log nofun
  | stxDeq =>
    change StartsNothing s (microStxDeq s)
    unfold microStxDeq
    split
    · exact dequeued
    · exact dequeued
  | stxWdata => exact withReg fun b => withReg fun _ => withReg fun _ => sent _
  | stxClr => exact withReg fun d => withReg fun c => (sent _).log nofun
  | stxWait =>
    refine withReg fun d => withReg fun us => ?_
    split
    · exact refl s
    · exact (refl s).log nofun
  | stxRxen => exact sent _

theorem irqEdge (s : State) : StartsNothing s (irqEdge s) := by
  obtain ⟨logged, -, waiting⟩ := (refl s).log (e := .irqEdge) nofun
  exact ⟨logged, fun _ => rfl, waiting⟩

theorem enq (b : Byte) (s : State) : StartsNothing s (enq b s) := by
  unfold Machine.enq
  split
  · exact (refl s).log nofun
  · exact (refl s).log nofun

/-- The Host issues a request only while it has none on the port (R141). -/
theorem host_move (e : hostMove s = .next t) : StartsNothing s t := by
  rcases hostMove_cases e with rfl | ⟨c, a, -, free, ⟨q, b, v, rfl⟩ | ⟨b, a', rfl⟩ | ⟨-, rfl⟩⟩
  · exact refl _
  · have none : s.hostReq = none := by
      simp only [hostWaits, Bool.or_eq_false_iff, Option.isSome_eq_false_iff, Option.isNone_iff_eq_none] at free
      exact free.1
    exact ⟨(refl s).1, id, fun r hr => by rw [none] at hr; cases hr⟩
  · exact enq b { s with host := a }
  · exact irqEdge { s with host := a }

theorem timePasses (ticks : Nat) (s : State) : StartsNothing s (timePasses ticks s) := by
  unfold Machine.timePasses
  split
  · exact refl s
  · exact refl s

theorem not_mem_newEvents (h : StartsNothing s t) (op : BitVec 4) (ops : Operands) :
    .req op ops ∉ newEvents s t := by
  obtain ⟨⟨es, ht, hes⟩, -⟩ := h
  rw [newEvents, ht, List.drop_left]
  exact hes op ops

end StartsNothing

theorem step_startsNothing {s t : State} (e : step s = .next t) (hp : s.portOut = none) (busy : s.phase ≠ .idle)
    (noReset : nextMove s.env ≠ .reset) : StartsNothing s t := by
  rw [step_move _ s hp rfl] at e
  cases hm : nextMove s.env <;> rw [hm] at e
  case sequencer pick =>
    have e := (sequencerMove_microStep (s := takeMove s) busy pick).symm.trans e
    injection e with e
    exact e ▸ StartsNothing.microStep (takeMove s)
  case host => exact StartsNothing.host_move (s := takeMove s) e
  case irqSource => injection e with e; exact e ▸ StartsNothing.irqEdge (takeMove s)
  case timeBase ticks => injection e with e; exact e ▸ StartsNothing.timePasses ticks (takeMove s)
  case reset => exact absurd hm noReset

/-- Settles O50: every agent's move but the reset event starts nothing away from IDLE. -/
theorem nothingStartsDuringAnOperation : Obligations.NothingStartsDuringAnOperation := by
  intro s t e hp busy noReset
  have nothing := step_startsNothing e hp busy noReset
  have ⟨_, latch, waiting⟩ := nothing
  exact ⟨nothing.not_mem_newEvents, latch, waiting⟩

/-! ### The release of the line (R64, R126, R127) -/

theorem microStxClr_val {s : State} {d c : Word} (hd : s.delayUs = .val d) (hc : s.curCfg = .val c) :
    microStxClr s = logEvent (.waitBegin d)
      { sendConfig (withoutTm s.params c) s with waitElapsed := .val 0, tickRest := 0, phase := .stxWait } := by
  rw [microStxClr, hd, withReg_val, hc, withReg_val]

theorem microStxWait_ends {s : State} {d : Word} {us : Nat} (hd : s.delayUs = .val d) (hu : s.waitElapsed = .val us)
    (passed : d.toNat ≤ us) :
    microStxWait s = logEvent .waitEnd { s with waitElapsed := .unw, tickRest := 0, phase := .stxRxen } := by
  rw [microStxWait, hd, withReg_val, hu, withReg_val, if_neg passed.not_gt]

/-- The state with `ms` as what is left of the schedule. -/
def withSchedule (ms : List Move) (s : State) : State := { s with env := { s.env with schedule := ms } }

/-- A scheduled move is the next one, and leaves the rest of the schedule. -/
theorem step_scheduled {s : State} {m : Move} {ms : List Move} (hp : s.portOut = none)
    (hs : s.env.schedule = m :: ms) : step s = runMove m (withSchedule ms s) := by
  rw [step_move m s hp (by rw [nextMove, hs]), takeMove, spendMove, hs, withSchedule]

/-- A scheduled Sequencer's move runs the micro-step of a phase that is not IDLE. -/
theorem step_microStep {s : State} {phase : Phase} {p : Pick} {ms : List Move} (hp : s.portOut = none)
    (hs : s.env.schedule = .sequencer p :: ms) (h : s.phase = phase) (busy : phase ≠ .idle := by decide) :
    step s = .next (microStep phase (withSchedule ms s)) := by
  subst h
  rw [step_scheduled hp hs]
  exact sequencerMove_microStep (s := withSchedule ms s) busy p

theorem run_succ {M : Host.Core} {s t : M.State} (e : M.step s = .next t) (k : Nat) :
    M.run (k + 1) s = M.run k t := by
  rw [Host.Core.run, e]

/-- A run of the machine begins with its first step. -/
theorem run_step {s t : State} (e : step s = .next t) (k : Nat) :
    Host.Core.run core (k + 1) s = Host.Core.run core k t :=
  run_succ (M := core) e k

/-- Where the release of the line stands: in phase `p`, with the moves `ms` to come and the history `h`, under the wait `d` and
the configuration word `c`. -/
structure Releasing (params : Params) (d c : Word) (p : Phase) (ms : List Move) (h : List Event) (s : State) :
    Prop where
  params : s.params = params
  delayUs : s.delayUs = .val d
  curCfg : s.curCfg = .val c
  phase : s.phase = p
  schedule : s.env.schedule = ms
  history : s.history = h
  portOut : s.portOut = none

namespace Releasing

variable {params : Params} {d c : Word} {pick : Pick} {ms : List Move} {h : List Event} {s : State}

/-- STX_CLR sends the word with TM cleared and begins the wait. -/
theorem stxClr (H : Releasing params d c .stxClr (.sequencer pick :: ms) h s) :
    ∃ t r, step s = .next t ∧ t.waitElapsed = .val 0 ∧
      Releasing params d (withoutTm params c) .stxWait ms (h ++ [.xfer (withoutTm params c) r] ++ [.waitBegin d]) t := by
  obtain ⟨rfl, hd, hc, phase, schedule, rfl, port⟩ := H
  have e := step_microStep port schedule phase
  rw [microStep, microStxClr_val (s := withSchedule ms s) hd hc] at e
  exact ⟨_, _, e, rfl, rfl, hd, rfl, rfl, spendAnswer_schedule _, rfl, port⟩

/-- In STX_WAIT the ticks of the time base become microseconds of the wait. -/
theorem ticked {ticks us : Nat} (H : Releasing params d c .stxWait (.timeBase ticks :: ms) h s)
    (hu : s.waitElapsed = .val us) :
    ∃ t, step s = .next t ∧ t.waitElapsed = .val (us + (s.tickRest + ticks * 1000000) / params.tickHz) ∧
      Releasing params d c .stxWait ms h t := by
  obtain ⟨rfl, hd, hc, phase, schedule, rfl, port⟩ := H
  have e := step_scheduled port schedule
  rw [runMove_timeBase, timePasses_wait ticks us (withSchedule ms s) phase hu] at e
  exact ⟨_, e, rfl, rfl, hd, hc, phase, rfl, rfl, port⟩

/-- STX_WAIT ends once `delay_us` microseconds were counted. -/
theorem stxWait {us : Nat} (H : Releasing params d c .stxWait (.sequencer pick :: ms) h s)
    (hu : s.waitElapsed = .val us) (passed : d.toNat ≤ us) :
    ∃ t, step s = .next t ∧ Releasing params d c .stxRxen ms (h ++ [.waitEnd]) t := by
  obtain ⟨rfl, hd, hc, phase, schedule, rfl, port⟩ := H
  have e := step_microStep port schedule phase
  rw [microStep, microStxWait_ends (s := withSchedule ms s) hd hu passed] at e
  exact ⟨_, e, rfl, hd, hc, rfl, rfl, rfl, port⟩

/-- STX_RXEN sends the receive-enable word and ends the dispatch. -/
theorem stxRxen (H : Releasing params d c .stxRxen (.sequencer pick :: ms) h s) :
    ∃ t r, step s = .next t ∧ Releasing params d c .idle ms (h ++ [.xfer params.rxenWord r]) t := by
  obtain ⟨rfl, hd, hc, phase, schedule, rfl, port⟩ := H
  exact ⟨_, _, step_microStep port schedule phase, rfl, hd, hc, rfl, spendAnswer_schedule _, rfl, port⟩

end Releasing

/-- Settles O23: STX_CLR, the ticks, STX_WAIT and STX_RXEN, one after the other. -/
theorem releaseSequenceRunsInOrder : Obligations.ReleaseSequenceRunsInOrder := by
  intro s d c ticks p₁ p₂ p₃ ms port phase hd hc enough schedule
  have start : Releasing s.params d c .stxClr _ s.history s := ⟨rfl, hd, hc, phase, schedule, rfl, port⟩
  obtain ⟨t₁, r₁, e₁, begun, cleared⟩ := start.stxClr
  obtain ⟨t₂, e₂, elapsed, waiting⟩ := cleared.ticked begun
  have passed : d.toNat ≤ 0 + (t₁.tickRest + ticks * 1000000) / s.params.tickHz := by
    rw [Nat.zero_add, Nat.le_div_iff_mul_le s.params.tickHz.2]
    omega
  obtain ⟨t₃, e₃, ended⟩ := waiting.stxWait elapsed passed
  obtain ⟨t₄, r₂, e₄, released⟩ := ended.stxRxen
  have run : Host.Core.run core 4 s = .next t₄ := by
    rw [run_step e₁, run_step e₂, run_step e₃, run_step e₄]
    rfl
  have events := released.history
  simp only [List.append_assoc, List.cons_append, List.nil_append] at events
  exact ⟨t₄, r₁, r₂, run, released.phase, released.curCfg, events⟩

end Sys2Proof.Machine

/-! Encoding and decoding (R70 to R78, R83, R89): every instruction and every word round-trips, the class of each word the block
sends, the refusals of the request port (R88), and the environment lines of a script (R92). -/

namespace Sys2Proof.Machine

/-! ### The round trips -/

/-- The per-instruction round trips, as one statement. -/
theorem decodeBytes_encode : ∀ i : Instr, Laws.RoundTrip.Statement i
  | .writeConfig .. => Laws.RoundTrip.writeConfig _ _ _ _ _ _ _ _ _ _ _
  | .readConfig _ => Laws.RoundTrip.readConfig _
  | .writeData .. => Laws.RoundTrip.writeData _ _ _ _ _
  | .readData _ => Laws.RoundTrip.readData _
  | .reserved0 => Laws.RoundTrip.reserved0
  | .encConfig .. => Laws.RoundTrip.encConfig _ _ _ _
  | .encData .. => Laws.RoundTrip.encData _ _
  | .decodeStatus _ => Laws.RoundTrip.decodeStatus _
  | .baudIndex _ => Laws.RoundTrip.baudIndex _
  | .parityBit .. => Laws.RoundTrip.parityBit _ _
  | .delayOf _ => Laws.RoundTrip.delayOf _
  | .applyConfig .. => Laws.RoundTrip.applyConfig _ _ _ _
  | .pushConfig => Laws.RoundTrip.pushConfig
  | .kick => Laws.RoundTrip.kick
  | .enqueue _ => Laws.RoundTrip.enqueue _
  | .dequeue => Laws.RoundTrip.dequeue
  | .irqDispatch => Laws.RoundTrip.irqDispatch
  | .serviceTx => Laws.RoundTrip.serviceTx
  | .serviceRx => Laws.RoundTrip.serviceRx
  | .reservedF => Laws.RoundTrip.reservedF

/-- Settles O1: by R6's defaults the row's mark makes a wire word one of the layout, and every instruction of a layout round-trips
in it. -/
theorem decodeOfEncodeIsTheInstruction : Obligations.DecodeOfEncodeIsTheInstruction := by
  intro p i rest h
  have fits : fitsLayout p i := h.elim (fun ⟨layout, mark⟩ => fitsLayout_default layout mark) id
  exact decodeBytes_encode i p rest fits

/-- The fields of a decoded word are adjacent, and joined they are the word. -/
theorem encodeWire_decodeWire (p : Params) (w : Word) : encodeWire (decodeWire p w) = w := by
  unfold decodeWire
  cases wordClass p w with
  | readConfig | readData => rfl
  | writeConfig | writeData =>
    simp only [encodeWire, BitVec.extractLsb'_append_extractLsb'_eq_extractLsb']
    exact BitVec.extractLsb'_eq_self

/-- Bits 15 to 14 of the words of a class, by R6's defaults (R83). -/
def classBits : WordClass → BitVec 2
  | .writeConfig => 3
  | .readConfig => 1
  | .writeData => 2
  | .readData => 0

theorem classBits_wordClass {p : Params} (h : DefaultLayout p) (w : Word) :
    classBits (wordClass p w) = w.extractLsb' 14 2 := by
  rw [wordClass_default h]
  generalize w.extractLsb' 14 2 = bits
  revert bits
  decide

theorem toNat_div_classBits (w : Word) : w.toNat / 2 ^ 14 = (w.extractLsb' 14 2).toNat := by
  rw [BitVec.extractLsb'_toNat, Nat.shiftRight_eq_div_pow]
  have := w.isLt
  omega

/-- Settles O2: the decoder goes by the class, and the class by bits 15 to 14. -/
theorem everyWordDecodesToOneClass : Obligations.EveryWordDecodesToOneClass := by
  intro p w
  refine ⟨encodeWire_decodeWire p w, fun layout => ?_⟩
  have bits : w.toNat / 2 ^ 14 = (classBits (wordClass p w)).toNat := by
    rw [toNat_div_classBits, classBits_wordClass layout]
  rw [decodeWire]
  cases hc : wordClass p w <;> rw [hc] at bits <;> exact bits

/-- Settles O3: the decoder runs on each word. -/
theorem exampleWordsDecode : Obligations.ExampleWordsDecode :=
  ⟨rfl, rfl, rfl, rfl, rfl, rfl, rfl, rfl, rfl⟩

/-! ### The words the block sends, where the marks are apart -/

theorem classOf_decodeWire (p : Params) (w : Word) : classOf (decodeWire p w) = some (wordClass p w) := by
  rw [decodeWire]
  cases wordClass p w <;> rfl

/-- What has no bit outside `k` has no bit of a mask that `k` has none of. -/
theorem and_eq_zero_of_covered {m k x : Word} (hk : m &&& k = 0) (hx : x &&& k = x) : m &&& x = 0 := by
  rw [← hx, BitVec.and_comm x, ← BitVec.and_assoc, hk]
  exact BitVec.zero_and

theorem and_flagBits {m k : Word} (hk : m &&& k = 0) (set : Bool) : m &&& flagBits set k = 0 := by
  cases set
  · exact BitVec.and_zero
  · exact hk

/-- Bits outside the mark bits leave a mark in them as it is. -/
theorem mark_or_fields {mark mask fields : Word} (hm : mark &&& mask = mark) (hf : mask &&& fields = 0) :
    (mark ||| fields) &&& mask = mark := by
  rw [BitVec.and_or_distrib_right, hm, BitVec.and_comm fields, hf]
  exact BitVec.or_zero

theorem setWidth_nibble (index : BitVec 4) : (index.setWidth 16 : Word) &&& 0x000F = index.setWidth 16 := by
  revert index; decide

theorem setWidth_byte (b : Byte) : (b.setWidth 16 : Word) &&& 0x00FF = b.setWidth 16 := by
  revert b; decide

theorem wcfgMark_and_markMask (p : Params) : p.wcfgMark &&& markMask p = p.wcfgMark := by
  ext j
  simpa [markMask] using Or.inl

theorem wdataMark_and_markMask (p : Params) : p.wdataMark &&& markMask p = p.wdataMark := by
  ext j
  simpa [markMask] using Or.inr

theorem wordClass_rcfgWord (p : Params) : wordClass p p.rcfgWord = .readConfig := if_pos rfl

namespace MarksApart

variable {p : Params} (h : MarksApart p) {w : Word}
include h

/-- No field of a configuration or data word has a mark bit. -/
theorem fields : (markMask p &&& p.tmMask = 0 ∧ markMask p &&& p.rmMask = 0 ∧ markMask p &&& p.stMask = 0 ∧
    markMask p &&& p.peMask = 0 ∧ markMask p &&& p.lMask = 0 ∧
    markMask p &&& (0x000F : Word) <<< (p.baudLo : Nat) = 0) ∧
    markMask p &&& p.rtsMask = 0 ∧ markMask p &&& p.ptMask = 0 ∧ markMask p &&& 0x00FF = 0 := by
  obtain ⟨-, -, apart, -⟩ := h
  simp only [BitVec.and_or_distrib_left, BitVec.ofNat_eq_ofNat, BitVec.or_eq_zero_iff] at apart ⊢
  tauto

theorem wordClass_probeWord : wordClass p p.probeWord = .readData := by
  obtain ⟨-, fixed, -⟩ := h
  rw [wordClass, if_neg fixed.symm, if_pos rfl]

theorem rxenWord_and_markMask : p.rxenWord &&& markMask p = p.wdataMark := by
  obtain ⟨-, -, -, rxen, -⟩ := h
  exact rxen

/-- A word with the configuration mark is none of the fixed words. -/
theorem wordClass_of_wcfgMark (hw : w &&& markMask p = p.wcfgMark) : wordClass p w = .writeConfig := by
  obtain ⟨marks, -, -, rxen, rcfg, -, probe, -⟩ := h
  rw [wordClass, if_neg, if_neg, if_neg, if_pos hw]
  · rintro rfl
    exact marks (hw.symm.trans rxen)
  · rintro rfl
    exact probe hw
  · rintro rfl
    exact rcfg hw

/-- A word with the data mark is neither of the other two classes' fixed words. -/
theorem wordClass_of_wdataMark (hw : w &&& markMask p = p.wdataMark) : wordClass p w = .writeData := by
  obtain ⟨marks, -, -, -, -, rcfg, -, probe⟩ := h
  rw [wordClass, if_neg, if_neg, hw, if_neg marks.symm, if_pos rfl, ite_self]
  · rintro rfl
    exact probe hw
  · rintro rfl
    exact rcfg hw

theorem configWord_and_markMask (hw : IsConfigWord p w) : w &&& markMask p = p.wcfgMark := by
  obtain ⟨baud, d7, st2, m, rfl⟩ := hw
  obtain ⟨⟨-, rm, st, pe, l, index⟩, -⟩ := h.fields
  have index : markMask p &&& (baudIndexOf p baud).setWidth 16 <<< (p.baudLo : Nat) = 0 :=
    and_eq_zero_of_covered index (by rw [← BitVec.shiftLeft_and_distrib, setWidth_nibble])
  simp only [configWord, BitVec.or_assoc]
  refine mark_or_fields (wcfgMark_and_markMask p) ?_
  simp [BitVec.and_or_distrib_left, rm, and_flagBits, st, pe, l, index]

theorem armedWord_and_markMask (hw : IsArmedWord p w) : w &&& markMask p = p.wcfgMark := by
  obtain ⟨c, hc, rfl⟩ := hw
  obtain ⟨⟨tm, -⟩, -⟩ := h.fields
  rw [withTm, BitVec.and_or_distrib_right, h.configWord_and_markMask hc, BitVec.and_comm, tm]
  exact BitVec.or_zero

theorem dataWord_and_markMask (b : Byte) (m : ParMode) : dataWord p b m &&& markMask p = p.wdataMark := by
  obtain ⟨-, rts, pt, byte⟩ := h.fields
  have byte : markMask p &&& b.setWidth 16 = 0 := and_eq_zero_of_covered byte (setWidth_byte b)
  simp only [dataWord, BitVec.or_assoc]
  refine mark_or_fields (wdataMark_and_markMask p) ?_
  simp [BitVec.and_or_distrib_left, and_flagBits, rts, pt, byte]

end MarksApart

/-! ### The words the block sends, by R6's defaults -/

section

variable {p : Params} (h : DefaultLayout p) {w : Word}
include h

/-- A configuration word is well formed, with and without TM (R13, R74). -/
theorem wellFormed_defaultConfigWord (index : BitVec 4) (l st pe : Bool) :
    (decodeWire p (defaultConfigWord index l st pe)).wellFormed = true ∧
      (decodeWire p (defaultConfigWord index l st pe ||| 0x0800)).wellFormed = true := by
  obtain ⟨plain, armed⟩ := wordClass_defaultConfigWord h index l st pe
  rw [decodeWire, decodeWire, plain, armed]
  clear plain armed
  revert index l st pe
  decide

theorem dataWord_highBits (b : Byte) (m : ParMode) : (dataWord p b m).extractLsb' 11 5 = 0b10000 := by
  rw [dataWord_default h]
  have flag (f : Bool) (k : Word) (hk : k.extractLsb' 11 5 = 0) : (flagBits f k).extractLsb' 11 5 = 0 := by
    cases f
    · show (0 : Word).extractLsb' 11 5 = 0
      decide
    · exact hk
  have byte : (b.setWidth 16 : Word).extractLsb' 11 5 = 0 := by
    revert b; decide
  simp [BitVec.extractLsb'_or, flag, byte]

theorem wellFormed_dataWord (b : Byte) (m : ParMode) : (decodeWire p (dataWord p b m)).wellFormed = true := by
  have hc : wordClass p (dataWord p b m) = .writeData := by
    rw [wordClass_default h, dataWord_mark h]
    decide
  rw [decodeWire, hc]
  exact beq_iff_eq.2 (dataWord_highBits h b m)

theorem Emittable.wellFormed (hw : Emittable p w) : (decodeWire p w).wellFormed = true := by
  rcases hw with hw | ⟨c, hc, rfl⟩ | rfl | ⟨b, m, rfl⟩ | rfl | rfl
  · obtain ⟨index, l, st, pe, rfl⟩ := hw.default h
    exact (wellFormed_defaultConfigWord h index l st pe).1
  · obtain ⟨index, l, st, pe, rfl⟩ := hc.default h
    rw [withTm, tmMask_default h]
    exact (wellFormed_defaultConfigWord h index l st pe).2
  · rw [decodeWire, wordClass_default h, rcfgWord_default h]
    decide
  · exact wellFormed_dataWord h b m
  · rw [decodeWire, wordClass_default h, rxenWord_default h]
    decide
  · rw [decodeWire, wordClass_default h, probeWord_default h]
    decide

end

/-- Settles O4: by R6's defaults each kind of word in turn; where the marks are apart, by its mark. -/
theorem emittedWordsAreWellFormed : Obligations.EmittedWordsAreWellFormed := by
  intro p w
  refine ⟨fun layout hw => hw.wellFormed layout, fun apart => ?_⟩
  simp only [classOf_decodeWire, Option.some_inj]
  refine ⟨?config, ?rcfg, ?data, ?probe⟩
  case config =>
    rintro (hw | hw)
    · exact apart.wordClass_of_wcfgMark (apart.configWord_and_markMask hw)
    · exact apart.wordClass_of_wcfgMark (apart.armedWord_and_markMask hw)
  case rcfg =>
    rintro rfl
    exact wordClass_rcfgWord p
  case data =>
    rintro (⟨b, m, rfl⟩ | rfl)
    · exact apart.wordClass_of_wdataMark (apart.dataWord_and_markMask b m)
    · exact apart.wordClass_of_wdataMark apart.rxenWord_and_markMask
  case probe =>
    rintro rfl
    exact apart.wordClass_probeWord

/-! ### Reserved and internal codes on the request port (R88) -/

/-- Settles O13: both codes are refused requests. -/
theorem reservedCodesAreRefused : Obligations.ReservedCodesAreRefused := by
  intro s idle
  rw [exec, exec, execReserved0, execReservedF, refusedRequest_idle _ _ _ s idle, refusedRequest_idle _ _ _ s idle]
  exact ⟨rfl, rfl⟩

theorem runRequest_refused {r : Request} (s : State)
    (code : r.op = 0x0 ∨ r.op = 0xA ∨ r.op = 0xB ∨ r.op = 0xC ∨ r.op = 0xD ∨ r.op = 0xE ∨ r.op = 0xF) :
    runRequest r s = .next (refusedRequest r.op .noOperands (.refusedOp r.op) s) := by
  unfold runRequest decodeRequest
  rcases code with h | h | h | h | h | h | h <;> rw [h] <;> rfl

/-- Settles O14: the arbiter starts the request, and the port refuses its code at IDLE. -/
theorem requestPortRefusesReservedAndInternalCodes : Obligations.RequestPortRefusesReservedAndInternalCodes := by
  intro s r pick hp idle hr hm choice code
  have start : chooseStart pick s.irqPending s.hostReq = .request r := by
    rw [hr]
    exact chooseStart_request pick _ r choice
  rw [step_move _ s hp hm]
  calc sequencerMove pick (takeMove s)
      = runRequest r { takeMove s with hostReq := none } := sequencerMove_request (s := takeMove s) idle start
    _ = .next (refusedRequest r.op .noOperands (.refusedOp r.op) { takeMove s with hostReq := none }) :=
      runRequest_refused _ code
    _ = .next (afterRefusal r.op .noOperands (.refusedOp r.op) { takeMove s with hostReq := none }) :=
      congrArg _ (refusedRequest_idle r.op _ _ { takeMove s with hostReq := none } idle)

/-! ### The environment lines of a script (R92) -/

theorem spendMove_sinkDraws (e : Env) : (spendMove e).sinkDraws = e.sinkDraws := by
  unfold spendMove
  split <;> rfl

/-- Settles O60: each line is one command of the Host, and spending the move leaves the agents' lists as they are. -/
theorem scriptLinesReachTheirAgents : Obligations.ScriptLinesReachTheirAgents := by
  intro s a hp hm hw
  refine ⟨fun hc => ?edge, fun x hc => ?answer, fun keep hc => ?sink⟩ <;> rw [step_host_cmd _ a s hp hm hw hc, runCmd]
  case edge => rfl
  case answer =>
    rw [← spendMove_answers s.env]
    rfl
  case sink =>
    rw [← spendMove_sinkDraws s.env]
    rfl

end Sys2Proof.Machine

/-! The pure codec requests (R95 to R105): what BAUD_INDEX, PARITY_BIT and the words of ENC_CONFIG and ENC_DATA are, and the one step
each request takes from IDLE. -/

namespace Sys2Proof.Machine

/-! ### Parity codes (R73, R90, R98) -/

@[simp] theorem parModeOf_parCode (m : ParMode) : parModeOf (parCode m) = some m := by
  cases m <;> rfl

theorem parCode_injective : Function.Injective parCode := fun m n e => by
  simpa using congrArg parModeOf e

theorem parCode_ne_three (m : ParMode) : parCode m ≠ 3 := by
  cases m <;> decide

/-- A parity code is the reserved one or the code of a mode. -/
theorem eq_three_or_parCode (par : BitVec 2) : par = 3 ∨ ∃ m, par = parCode m := by
  have codes : ∀ p : BitVec 2, p = 3 ∨ p = parCode .none ∨ p = parCode .even ∨ p = parCode .odd := by decide
  rcases codes par with e | e | e | e
  · exact .inl e
  all_goals exact .inr ⟨_, e⟩

/-- The parity bit is set for an odd count under even parity, and for an even count under odd parity. -/
theorem parityOf_iff (b : Byte) (m : ParMode) :
    parityOf b m = true ↔ parCode m = 1 ∧ popcount8 b % 2 = 1 ∨ parCode m = 2 ∧ popcount8 b % 2 = 0 := by
  cases m <;> simp [parityOf, parCode]

/-- With even parity the byte and its parity bit hold an even number of set bits (R99). -/
theorem popcount8_add_parityOf_even (b : Byte) : (popcount8 b + (parityOf b .even).toNat) % 2 = 0 := by
  rcases Nat.mod_two_eq_zero_or_one (popcount8 b) with h | h
  · rw [parityOf, h]; exact h
  · rw [parityOf, h]; exact Nat.succ_mod_two_eq_zero_iff.2 h

/-- With odd parity they hold an odd number (R99). -/
theorem popcount8_add_parityOf_odd (b : Byte) : (popcount8 b + (parityOf b .odd).toNat) % 2 = 1 := by
  rcases Nat.mod_two_eq_zero_or_one (popcount8 b) with h | h
  · rw [parityOf, h]; exact Nat.succ_mod_two_eq_one_iff.2 h
  · rw [parityOf, h]; exact h

theorem flagBits_one (set : Bool) : flagBits set 1 = BitVec.ofNat 16 set.toNat := by
  cases set <;> rfl

/-! ### Requests that read a parity code -/

theorem parRequest_reserved (op : BitVec 4) (ops : Operands) (go : ParMode → State) {s : State} (idle : s.phase = .idle) :
    parRequest op ops 3 s go = afterRefusal op ops .refusedPar s :=
  refusedRequest_idle op ops .refusedPar s idle

theorem parRequest_pure (op : BitVec 4) (ops : Operands) (m : ParMode) (d : ParMode → ResultData) {s : State}
    (idle : s.phase = .idle) :
    parRequest op ops (parCode m) s (fun m => pureRequest op ops (d m) s) =
      afterRequest op ops { code := .ok, data := d m } s := by
  rw [parRequest_legal _ _ _ _ _ m (parModeOf_parCode m), pureRequest_idle _ _ _ s idle]

/-! ### The baud index (R95, R96, R100) -/

/-- The index of each rate by R6's defaults. -/
def defaultIndex (baud : BitVec 32) : BitVec 4 :=
  if baud = 230400 then 0x0 else if baud = 115200 then 0x1 else if baud = 57600 then 0x2
  else if baud = 38400 then 0x9 else if baud = 19200 then 0xA else if baud = 4800 then 0xC
  else if baud = 2400 then 0xD else if baud = 1200 then 0xE else if baud = 600 then 0xF
  else 0xB

theorem defaultIndex_of_unsupported {baud : BitVec 32} (hb : baud.toNat ∉ supportedBauds) : defaultIndex baud = 0xB := by
  have other (rate : BitVec 32) (hr : rate.toNat ∈ supportedBauds) : baud ≠ rate := by
    rintro rfl
    exact hb hr
  unfold defaultIndex
  iterate 9 rw [if_neg (other _ (by decide))]

/-- The default table has the index of every supported rate. -/
theorem tableIndex_default : ∀ rate ∈ supportedBauds, tableIndex defaultBaudTable rate = defaultIndex (BitVec.ofNat 32 rate) := by
  decide

theorem baudIndexOf_default {p : Params} (h : DefaultLayout p) (baud : BitVec 32) : baudIndexOf p baud = defaultIndex baud := by
  have table : p.baudTable = defaultBaudTable := by rw [h]; rfl
  have fallback : (p.defaultBaud : Nat) = 9600 := by rw [h]; rfl
  rw [baudIndexOf, effBaud, table, fallback]
  split
  case isTrue hb => rw [tableIndex_default _ hb, BitVec.ofNat_toNat, BitVec.setWidth_eq]
  case isFalse hb =>
    rw [defaultIndex_of_unsupported hb, tableIndex_default 9600 (by decide)]
    decide

/-! ### The six requests -/

theorem exec_baudIndex (baud : BitVec 32) {s : State} (idle : s.phase = .idle) :
    exec (.baudIndex baud) s =
      .next (afterRequest 0x4 (.baud baud) (okWord ((baudIndexOf s.params baud).setWidth 16)) s) :=
  congrArg _ (pureRequest_idle 0x4 (.baud baud) _ s idle)

theorem exec_delayOf (baud : BitVec 32) {s : State} (idle : s.phase = .idle) :
    exec (.delayOf baud) s = .next (afterRequest 0x6 (.baud baud) (okWord (delayOfBaud s.params baud)) s) :=
  congrArg _ (pureRequest_idle 0x6 (.baud baud) _ s idle)

theorem exec_decodeStatus (word : Word) {s : State} (idle : s.phase = .idle) :
    exec (.decodeStatus word) s =
      .next (afterRequest 0x3 (.word word) { code := .ok, data := statusOf s.params word } s) :=
  congrArg _ (pureRequest_idle 0x3 (.word word) _ s idle)

theorem exec_encConfig (baud : BitVec 32) (d7 st2 : BitVec 1) (m : ParMode) {s : State} (idle : s.phase = .idle) :
    exec (.encConfig baud d7 st2 (parCode m)) s =
      .next (afterRequest 0x1 (.line baud d7 st2 (parCode m)) (okWord (configWord s.params baud d7 st2 m)) s) :=
  congrArg _ (parRequest_pure 0x1 _ m (fun m => .word (configWord s.params baud d7 st2 m)) idle)

theorem exec_encData (b : Byte) (m : ParMode) {s : State} (idle : s.phase = .idle) :
    exec (.encData b (parCode m)) s =
      .next (afterRequest 0x2 (.data b (parCode m)) (okWord (dataWord s.params b m)) s) :=
  congrArg _ (parRequest_pure 0x2 _ m (fun m => .word (dataWord s.params b m)) idle)

theorem exec_parityBit (b : Byte) (m : ParMode) {s : State} (idle : s.phase = .idle) :
    exec (.parityBit b (parCode m)) s =
      .next (afterRequest 0x5 (.data b (parCode m)) (okWord (flagBits (parityOf b m) 1)) s) :=
  congrArg _ (parRequest_pure 0x5 _ m (fun m => .word (flagBits (parityOf b m) 1)) idle)

/-- Settles O7: the table's only entry of the effective rate is its index, and the default table has `defaultIndex`. -/
theorem baudIndexGivesTheTableEntry : Obligations.BaudIndexGivesTheTableEntry := by
  intro s baud idle
  exact ⟨baudIndexOf s.params baud, exec_baudIndex baud idle, fun _ entry only => tableIndex_of_entry entry only,
    fun layout => baudIndexOf_default layout baud⟩

/-- Settles O8: the word is `configWord`, whose bits by R6's defaults are those of `defaultConfigWord`. -/
theorem encConfigAssemblesTheWord : Obligations.EncConfigAssemblesTheWord := by
  intro s baud d7 st2 par idle
  rcases eq_three_or_parCode par with rfl | ⟨m, rfl⟩
  · rw [if_pos rfl]
    exact congrArg _ (parRequest_reserved 0x1 _ _ idle)
  · rw [if_neg (parCode_ne_three m)]
    refine ⟨configWord s.params baud d7 st2 m, baudIndexOf s.params baud, exec_encConfig baud d7 st2 m idle,
      exec_baudIndex baud idle, ?word, fun layout => ⟨?tm, fun unsupported => ?index⟩⟩
    case word => cases m <;> simp [configWord, flagBits, parCode]
    case tm =>
      have fixed := IsConfigWord.constantBits layout ⟨baud, d7, st2, m, rfl⟩
      calc configWord s.params baud d7 st2 m &&& 0x0800
          = configWord s.params baud d7 st2 m &&& 0xFF80 &&& 0x0800 := by rw [BitVec.and_assoc]; rfl
        _ = 0 := by rw [fixed]; decide
    case index =>
      rw [configWord_default layout, (defaultConfigWord_bits ..).2, baudIndexOf_default layout,
        defaultIndex_of_unsupported unsupported]
      rfl

/-- Settles O9: the word is `dataWord`, and its parity bit stands where `parityOf_iff` says. -/
theorem encDataAssemblesTheWord : Obligations.EncDataAssemblesTheWord := by
  intro s b par idle
  rcases eq_three_or_parCode par with rfl | ⟨m, rfl⟩
  · rw [if_pos rfl]
    exact congrArg _ (parRequest_reserved 0x2 _ _ idle)
  · rw [if_neg (parCode_ne_three m), exec_encData b m idle]
    simp only [dataWord, flagBits, parityOf_iff]

/-- Settles O10: by R6's defaults the three fields stand at 15, 14 and 7:0. -/
theorem decodeStatusReportsTheFields : Obligations.DecodeStatusReportsTheFields := by
  intro s w idle
  refine ⟨exec_decodeStatus w idle, fun layout => ?_⟩
  rw [exec_decodeStatus w idle, statusOf, respR_default layout, respT_default layout, respByte_default layout,
    BitVec.setWidth_eq_extractLsb' (by decide)]

/-- Settles O11: the bit is `parityOf`, which meets R99 in each mode. -/
theorem parityBitMeetsTheLaw : Obligations.ParityBitMeetsTheLaw := by
  intro s b par idle
  rcases eq_three_or_parCode par with rfl | ⟨m, rfl⟩
  · rw [if_pos rfl]
    exact congrArg _ (parRequest_reserved 0x5 _ _ idle)
  · rw [if_neg (parCode_ne_three m)]
    refine ⟨(parityOf b m).toNat, Bool.toNat_le _, ?bit, fun code => ?none, fun code => ?even, fun code => ?odd⟩
    case bit => rw [exec_parityBit b m idle, flagBits_one]
    case none =>
      obtain rfl : m = .none := parCode_injective code
      rfl
    case even =>
      obtain rfl : m = .even := parCode_injective code
      exact popcount8_add_parityOf_even b
    case odd =>
      obtain rfl : m = .odd := parCode_injective code
      exact popcount8_add_parityOf_odd b

/-- Settles O12: by R6's defaults the quotient is at most 16666, so 16 bits hold it. -/
theorem delayOfDividesByTheEffectiveBaud : Obligations.DelayOfDividesByTheEffectiveBaud := by
  intro s baud idle
  refine ⟨delayOfBaud s.params baud, exec_delayOf baud idle, delayOfBaud_toNat, fun layout => ?_⟩
  have range := delayNum_div_effBaud layout baud
  have numerator : s.params.delayNum = 10000000 := by rw [layout]; rfl
  have fallback : (s.params.defaultBaud : Nat) = 9600 := by rw [layout]; rfl
  rw [delayOfBaud_toNat (by omega)]
  refine ⟨?_, range⟩
  rw [numerator, effBaud, fallback]
  rfl

end Sys2Proof.Machine

/-! A whole PUSH_CONFIG (R108, R121): what each of its three micro-steps leaves, and the run of the three where the echo matches. -/

namespace Sys2Proof.Machine

/-- An exchange with a prepared answer spends it and records its outcome (R53, R57). -/
theorem xfer_prepared {s : State} {a : Answer} {as : List Answer} (h : s.env.answers = a :: as) (w : Word) :
    xfer w s = { s with
      env := { s.env with answers := as }, history := s.history ++ [.xfer w (outcomeOf a)] } := by
  rw [xfer_eq, xferEvent, spendAnswer, answerFor, h]

theorem xferResp_prepared {s : State} {a : Answer} {as : List Answer} (h : s.env.answers = a :: as) (w : Word) :
    xferResp w s = responseOf a := by
  rw [xferResp, answerFor, h]

/-! ### The micro-steps that succeed -/

theorem microPushWcfg_val {s : State} {p : Word} (hp : s.pendingCfg = .val p) :
    microPushWcfg s = setPhase .pushRcfg (sendConfig p s) := by
  rw [microPushWcfg, hp, withReg_val]

/-- The start and PUSH_WCFG in one step: `pending_cfg` is sent as `cur_cfg`. -/
theorem exec_pushConfig_idle {s : State} {p : Word} {a : Answer} {as : List Answer} (idle : s.phase = .idle)
    (hp : s.pendingCfg = .val p) (answers : s.env.answers = a :: as) :
    exec .pushConfig s = .next { s with
      curCfg := .val p, phase := .pushRcfg, tResp := .unw, tByte := .unw, env := { s.env with answers := as }
      history := s.history ++ [.req 0x8 .noOperands, .xfer p (outcomeOf a)] } := by
  rw [exec, execPushConfig, idle]
  dsimp only
  rw [microPushWcfg_val (by exact hp), sendConfig, xfer_prepared (by exact answers)]
  simp [setPhase, startRequest, clearTemps, beginRequest, logEvent]

theorem microPushRcfg_match {s : State} {c : Word} (hc : s.curCfg = .val c)
    (echo : echoMatches s.params (xferResp s.params.rcfgWord s) c = true) :
    microPushRcfg s = setPhase .pushRxen (sendAndKeep s.params.rcfgWord s) := by
  rw [microPushRcfg, hc, withReg_val]
  exact if_pos echo

/-! ### The three steps -/

section

variable {s : State} {pick : Pick} {ms : List Move} {a : Answer} {as : List Answer}
  (port : s.portOut = none) (schedule : s.env.schedule = .sequencer pick :: ms) (answers : s.env.answers = a :: as)
include port schedule answers

/-- The start: the request leaves the port, and PUSH_WCFG sends `pending_cfg`. -/
theorem step_pushWcfg {r : Request} {p : Word} (idle : s.phase = .idle) (latch : s.irqPending = false)
    (waiting : s.hostReq = some r) (code : r.op = 0x8) (hp : s.pendingCfg = .val p) :
    step s = .next { s with
      curCfg := .val p, hostReq := none, phase := .pushRcfg, tResp := .unw, tByte := .unw
      env := { s.env with answers := as, schedule := ms }
      history := s.history ++ [.req 0x8 .noOperands, .xfer p (outcomeOf a)] } := by
  have start : chooseStart pick s.irqPending s.hostReq = .request r := by
    rw [waiting]
    exact chooseStart_request pick _ r (.inl latch)
  have push : decodeRequest r = .pushConfig := by
    rw [decodeRequest, code]
    rfl
  calc step s
      = runRequest r { withSchedule ms s with hostReq := none } :=
      (step_scheduled port schedule).trans (sequencerMove_request (s := withSchedule ms s) idle start)
    _ = exec .pushConfig { withSchedule ms s with hostReq := none } := by
      rw [runRequest_of_code _ _ (by rw [code]; decide) (by rw [code]; decide), push]
    _ = _ := exec_pushConfig_idle (s := { withSchedule ms s with hostReq := none }) idle hp answers

/-- PUSH_RCFG reads back an echo that matches `cur_cfg` in ECHO_MASK. -/
theorem step_pushRcfg {c : Word} (phase : s.phase = .pushRcfg) (hc : s.curCfg = .val c)
    (echo : responseOf a &&& s.params.echoMask = c &&& s.params.echoMask) :
    step s = .next { s with
      phase := .pushRxen, tResp := .val (responseOf a)
      env := { s.env with answers := as, schedule := ms }
      history := s.history ++ [.xfer s.params.rcfgWord (outcomeOf a)] } := by
  have resp (w : Word) : xferResp w (withSchedule ms s) = responseOf a := xferResp_prepared answers w
  rw [step_microStep port schedule phase, microStep,
    microPushRcfg_match (s := withSchedule ms s) hc (by rw [resp]; exact beq_iff_eq.2 echo), sendAndKeep, resp,
    xfer_prepared (s := withSchedule ms s) answers]
  rfl

/-- PUSH_RXEN sends the receive-enable word and answers OK. -/
theorem step_pushRxen (phase : s.phase = .pushRxen) :
    step s = .next { s with
      phase := .idle, tResp := .unw, tByte := .unw, result := some { code := .ok, data := .noData }
      env := { s.env with answers := as, schedule := ms }
      history := s.history ++
        [.xfer s.params.rxenWord (outcomeOf a), .done 0x8 { code := .ok, data := .noData }] } := by
  rw [step_microStep port schedule phase, microStep, microPushRxen, sendData,
    xfer_prepared (s := withSchedule ms s) answers]
  simp [complete, finish, clearTemps, logEvent, withSchedule, plain]

end

/-- Settles O18: the three steps one after the other; the last leaves IDLE, where the first began. -/
theorem pushConfigWithMatchingEchoSucceeds : Obligations.PushConfigWithMatchingEchoSucceeds := by
  intro s r p a₁ a₂ a₃ as ms port idle latch waiting code hp answers schedule echo
  refine Eq.trans (run_step (step_pushWcfg port schedule answers idle latch waiting code hp) 2) ?_
  refine Eq.trans (run_step (step_pushRcfg (by exact port) rfl rfl rfl rfl (by exact echo)) 1) ?_
  refine Eq.trans (run_step (step_pushRxen (by exact port) rfl rfl rfl) 0) ?_
  simp [Host.Core.run, idle]

end Sys2Proof.Machine

/-! The Transmit Queue (41_queue.md): what ENQUEUE and DEQUEUE do, and that no other operation touches the queue, its capacity or the
bytes the history records for it, so that R113 and R114 need only the two. -/

namespace Sys2Proof.Machine

/-! ### The two outcomes of DEQUEUE (R112) -/

section

variable {s : State} {b : Byte} {bs : List Byte}

theorem deq_of_cons (front : s.txq = b :: bs) :
    deq s = { s with txq := bs, history := s.history ++ [.deq (some b)] } := by
  simp [deq, deqResult, logEvent, front]

theorem deq_of_nil (empty : s.txq = []) : deq s = { s with history := s.history ++ [.deq none] } := by
  rw [deq, deqResult, empty, List.head?_nil, List.tail_nil, ← empty]
  rfl

end

/-! ### What leaves the queue as it was (R19, R115) -/

/-- From `s` to `t` the queue, the parameters and the bytes recorded as enqueued and dequeued did not change. -/
structure SameQueue (s t : State) : Prop where
  txq : t.txq = s.txq := by rfl
  params : t.params = s.params := by rfl
  enqueued : enqueuedBytes t.history = enqueuedBytes s.history := by rfl
  dequeued : dequeuedBytes t.history = dequeuedBytes s.history := by rfl

theorem enqueuedBytes_append (h es : List Event) :
    enqueuedBytes (h ++ es) = enqueuedBytes h ++ enqueuedBytes es := List.filterMap_append

theorem dequeuedBytes_append (h es : List Event) :
    dequeuedBytes (h ++ es) = dequeuedBytes h ++ dequeuedBytes es := List.filterMap_append

namespace SameQueue

variable {s t : State}

/-- An event that is neither an ENQUEUE with OK nor a DEQUEUE of a byte records none. -/
theorem log (h : SameQueue s t) (e : Event) (he : enqueuedBytes [e] = [] := by rfl)
    (hd : dequeuedBytes [e] = [] := by rfl) : SameQueue s (logEvent e t) where
  txq := h.txq
  params := h.params
  enqueued := by rw [logEvent_history, enqueuedBytes_append, he, List.append_nil, h.enqueued]
  dequeued := by rw [logEvent_history, dequeuedBytes_append, hd, List.append_nil, h.dequeued]

theorem enq_full (b : Byte) (full : s.txq.length = (s.params.qcap : Nat)) : SameQueue s (enq b s) := by
  rw [Machine.enq_full b s full]
  exact log {} _

theorem deq_nil (empty : s.txq = []) : SameQueue s (deq s) := by
  rw [deq_of_nil empty]
  exact log {} (.deq none)

theorem timePasses (ticks : Nat) (s : State) : SameQueue s (timePasses ticks s) := by
  unfold Machine.timePasses
  split
  · exact {}
  · exact {}

/-- What reads only the queue, its parameters and its record is kept by every move, if an ENQUEUE that finds room and a DEQUEUE that
finds a byte keep it. -/
theorem keptByMoves {P : State → Prop} (same : ∀ {s t}, SameQueue s t → P s → P t)
    (enq_room : ∀ b s, s.txq.length ≠ (s.params.qcap : Nat) → P s → P (enq b s))
    (deq_cons : ∀ b bs s, s.txq = b :: bs → P s → P (deq s)) : KeptByMoves P where
  req _ _ _ := same (log {} _)
  done _ _ _ := same (log {} _)
  raise _ _ _ := same (log {} _)
  setPhase _ _ := same {}
  clearTemps _ := same {}
  keepByte _ _ := same {}
  keepResp _ _ := same {}
  sendConfig _ _ := same (log {} _)
  xfer _ _ := same (log {} _)
  enq b s := by
    by_cases full : s.txq.length = (s.params.qcap : Nat)
    · exact same (enq_full b full)
    · exact enq_room b s full
  deq s := by
    cases hq : s.txq with
    | nil => exact same (deq_nil hq)
    | cons b bs => exact deq_cons b bs s hq
  deliver _ _ := same (log {} _)
  apply _ _ _ _ _ := same {}
  beginWait _ _ := same (log {} _)
  endWait _ := same (log {} _)
  takeEdge _ := same {}
  dropPort _ := same {}
  env _ _ := same {}
  hostReq _ _ := same {}
  host _ _ := same {}
  irqEdge _ := same (log {} _)
  passTime ticks s := same (timePasses ticks s)

end SameQueue

/-! ### The FIFO law (R113) -/

namespace FifoInv

variable {s t : State}

theorem same (h : SameQueue s t) (H : FifoInv s) : FifoInv t := by
  rw [FifoInv, h.enqueued, h.dequeued, h.txq]
  exact H

/-- The byte joins the enqueued bytes and the queue at their ends. -/
theorem enq_room (b : Byte) (room : s.txq.length ≠ (s.params.qcap : Nat)) (H : FifoInv s) : FifoInv (enq b s) := by
  rw [Machine.enq_room b s room]
  calc enqueuedBytes (s.history ++ [.enq b .ok])
    _ = enqueuedBytes s.history ++ [b] := enqueuedBytes_append ..
    _ = dequeuedBytes s.history ++ s.txq ++ [b] := by rw [H]
    _ = dequeuedBytes (s.history ++ [.enq b .ok]) ++ (s.txq ++ [b]) := by
      simp [dequeuedBytes]

/-- The byte goes from the front of the queue to the end of the dequeued bytes. -/
theorem deq_cons {b : Byte} {bs : List Byte} (front : s.txq = b :: bs) (H : FifoInv s) : FifoInv (deq s) := by
  rw [deq_of_cons front]
  calc enqueuedBytes (s.history ++ [.deq (some b)])
    _ = enqueuedBytes s.history := (enqueuedBytes_append ..).trans (List.append_nil _)
    _ = dequeuedBytes s.history ++ b :: bs := by rw [H, front]
    _ = dequeuedBytes (s.history ++ [.deq (some b)]) ++ bs := by
      simp [dequeuedBytes]

theorem keptByMoves : KeptByMoves FifoInv :=
  SameQueue.keptByMoves same (fun b _ => enq_room b) fun _ _ _ => deq_cons

end FifoInv

/-- Settles O31: an ENQUEUE that finds room and a DEQUEUE that finds a byte keep the law, every other operation leaves what it speaks
of, and the reset event empties the queue and the history. -/
theorem queueStaysFifo : Obligations.QueueStaysFifo :=
  step_keeps FifoInv.keptByMoves fun _ _ => rfl

/-! ### The capacity (R35, R114) -/

theorem params_keptByMoves (p : Params) : KeptByMoves (·.params = p) :=
  SameQueue.keptByMoves (fun h e => h.params.trans e) (fun b s room e => by rwa [enq_room b s room]) fun _ _ _ _ e => e

theorem step_params {s t : State} (e : step s = .next t) : t.params = s.params :=
  step_keeps (params_keptByMoves s.params) (fun _ h => h) s t rfl e

namespace CapacityInv

variable {s t : State}

theorem same (h : SameQueue s t) (H : CapacityInv s) : CapacityInv t := by
  rw [CapacityInv, h.txq, h.params]
  exact H

/-- An ENQUEUE is answered OK only below QCAP. -/
theorem enq_room (b : Byte) (room : s.txq.length ≠ (s.params.qcap : Nat)) (H : CapacityInv s) :
    CapacityInv (enq b s) := by
  have below : s.txq.length < s.params.qcap := Nat.lt_of_le_of_ne H room
  rw [Machine.enq_room b s room, CapacityInv, logEvent_txq, logEvent_params, List.length_append]
  exact below

theorem deq (H : CapacityInv s) : CapacityInv (deq s) := by
  rw [CapacityInv, deq_txq, deq_params, List.length_tail]
  exact (Nat.sub_le ..).trans H

theorem keptByMoves : KeptByMoves CapacityInv :=
  SameQueue.keptByMoves same (fun b _ => enq_room b) fun _ _ _ _ => deq

end CapacityInv

/-- Settles O32: an ENQUEUE finds room only below QCAP, and nothing writes the parameters. -/
theorem queueStaysWithinCapacity : Obligations.QueueStaysWithinCapacity := fun s t H e =>
  ⟨step_keeps CapacityInv.keptByMoves (fun _ _ => Nat.zero_le _) s t H e, step_params e⟩

/-! ### The two operations (R111, R112) -/

/-- Settles O29: ENQUEUE is `enq`, with its two outcomes. -/
theorem enqueueAnswersOkOrFull : Obligations.EnqueueAnswersOkOrFull := by
  intro s b
  by_cases full : s.txq.length = (s.params.qcap : Nat)
  · rw [if_pos full]
    exact congrArg _ (enq_full b s full)
  · rw [if_neg full]
    exact congrArg _ (enq_room b s full)

theorem exec_dequeue_kickDeq {s : State} (hp : s.phase = .kickDeq) : exec .dequeue s = .next (microKickDeq s) := by
  simp only [exec, execDequeue, hp]

theorem exec_dequeue_stxDeq {s : State} (hp : s.phase = .stxDeq) : exec .dequeue s = .next (microStxDeq s) := by
  simp only [exec, execDequeue, hp]

section

variable {s : State} {b : Byte} {bs : List Byte}

theorem microKickDeq_cons (front : s.txq = b :: bs) :
    microKickDeq s = { s with
      txq := bs, tByte := .val b, phase := .kickWdata
      history := s.history ++ [.deq (some b)] } := by
  simp [microKickDeq, deqResult, deq_of_cons front, front]

theorem microKickDeq_nil (empty : s.txq = []) :
    microKickDeq s = { s with
      phase := .idle, tResp := .unw, tByte := .unw, result := some (plain .ok)
      history := s.history ++ [.deq none, .done 0x9 (plain .ok)] } := by
  simp [microKickDeq, deqResult, deq_of_nil empty, empty, complete, finish, clearTemps, logEvent]

theorem microStxDeq_cons (front : s.txq = b :: bs) :
    microStxDeq s = { s with
      txq := bs, tByte := .val b, phase := .stxWdata
      history := s.history ++ [.deq (some b)] } := by
  simp [microStxDeq, deqResult, deq_of_cons front, front]

theorem microStxDeq_nil (empty : s.txq = []) :
    microStxDeq s = { s with phase := .stxClr, history := s.history ++ [.deq none] } := by
  simp [microStxDeq, deqResult, deq_of_nil empty, empty, setPhase]

end

/-- Settles O30: in each of its two phases DEQUEUE is that phase's micro-step, with a byte queued and with none. -/
theorem dequeueTakesTheOldestByte : Obligations.DequeueTakesTheOldestByte := by
  refine fun s => ⟨fun b bs front => ⟨fun hp => ?_, fun hp => ?_⟩, fun empty => ⟨fun hp => ?_, fun hp => ?_⟩⟩
  · rw [exec_dequeue_kickDeq hp, microKickDeq_cons front]
  · rw [exec_dequeue_stxDeq hp, microStxDeq_cons front]
  · rw [exec_dequeue_kickDeq hp, microKickDeq_nil empty, plain]
  · rw [exec_dequeue_stxDeq hp, microStxDeq_nil empty]

end Sys2Proof.Machine

/-! The operations of the Transfer Orchestrator (R119 to R128): the outcomes of APPLY_CONFIG and of the micro-steps of the others, each with
its whole next state, and that no instruction but APPLY_CONFIG writes the registers it derives. -/

namespace Sys2Proof.Machine

/-! ### How an operation starts, runs and ends -/

/-- In a phase of its own an operation runs that phase's micro-step. -/
theorem exec_eq_microStep {s : State} {p : Phase} {i : Instr} (hp : s.phase = p) (hi : phaseOp p = some i := by rfl) :
    exec i s = .next (microStep p s) := by
  subst hp
  exact exec_inProgress hi

/-- The request event, and the temporaries UNW. -/
theorem startRequest_eq (op : BitVec 4) (ops : Operands) (s : State) :
    startRequest op ops s = { s with tResp := .unw, tByte := .unw, history := s.history ++ [.req op ops] } := rfl

theorem complete_eq (op : BitVec 4) (r : Result) (s : State) :
    complete op r s = { s with
      phase := .idle, tResp := .unw, tByte := .unw, result := some r, history := s.history ++ [.done op r] } := rfl

theorem endOperation_eq (s : State) :
    endOperation s = { s with phase := .idle, tResp := .unw, tByte := .unw } := rfl

/-- A fault in a phase of a host request: the request ends FAULTED, with no exchange (R156). -/
theorem takeFault_request {s : State} {p : Phase} {op : BitVec 4} (k : FaultKind) (hp : s.phase = p)
    (hop : hostOp p = some op := by rfl) :
    takeFault k s = { s with
      phase := .idle, tResp := .unw, tByte := .unw, result := some (plain .faulted)
      faults := insertFault ⟨k, p, op⟩ s.faults
      history := s.history ++ [.fault k, .done op (plain .faulted)] } := by
  subst hp
  rw [takeFault, hop]
  simp [complete_eq, raise, logEvent]

/-- A fault in a phase of the dispatch ends it with no result and no exchange (R156). -/
theorem takeFault_dispatch {s : State} {p : Phase} (k : FaultKind) (hp : s.phase = p)
    (hop : hostOp p = none := by rfl) :
    takeFault k s = { s with
      phase := .idle, tResp := .unw, tByte := .unw
      faults := insertFault ⟨k, p, 0xC⟩ s.faults, history := s.history ++ [.fault k] } := by
  subst hp
  rw [takeFault, hop]
  rfl

theorem exec_pushConfig_start {s : State} (idle : s.phase = .idle) :
    exec .pushConfig s = .next (microPushWcfg (setPhase .pushWcfg (startRequest 0x8 .noOperands s))) := by
  simp only [exec, execPushConfig, idle]

theorem exec_kick_start {s : State} (idle : s.phase = .idle) :
    exec .kick s = .next (microKickTest (setPhase .kickTest (startRequest 0x9 .noOperands s))) := by
  simp only [exec, execKick, idle]

/-! ### APPLY_CONFIG (R119, R120) -/

theorem parEnOf_eq (m : ParMode) : parEnOf m = decide (parCode m = 1 ∨ parCode m = 2) := by
  cases m <;> decide

theorem parOddOf_eq (m : ParMode) : parOddOf m = decide (parCode m = 2) := by
  cases m <;> decide

theorem exec_applyConfig (baud : BitVec 32) (d7 st2 : BitVec 1) (m : ParMode) {s : State} (idle : s.phase = .idle) :
    exec (.applyConfig baud d7 st2 (parCode m)) s =
      .next (complete 0x7 (plain .ok)
        (applyRegs baud d7 st2 m (startRequest 0x7 (.line baud d7 st2 (parCode m)) s))) := by
  rw [exec, execApplyConfig, parRequest_legal _ _ _ _ _ m (parModeOf_parCode m), atIdle, if_pos idle]

/-- Settles O15: the word and the delay that APPLY_CONFIG stores are those of `exec_encConfig` and `exec_delayOf`. -/
theorem applyConfigStoresThePendingTarget : Obligations.ApplyConfigStoresThePendingTarget := by
  intro s baud d7 st2 par idle
  rcases eq_three_or_parCode par with rfl | ⟨m, rfl⟩
  · rw [if_pos rfl]
    exact congrArg _ (parRequest_reserved 0x7 _ _ idle)
  · rw [if_neg (parCode_ne_three m)]
    refine ⟨configWord s.params baud d7 st2 m, delayOfBaud s.params baud, exec_encConfig baud d7 st2 m idle,
      exec_delayOf baud idle, ?_⟩
    rw [exec_applyConfig baud d7 st2 m idle, complete_eq, applyRegs, startRequest_eq, parEnOf_eq, parOddOf_eq]
    simp [afterRequest, plain, idle]

/-! ### No other instruction writes the derived registers (R120) -/

/-- From `s` to `t` the registers APPLY_CONFIG writes did not change. -/
structure SameDerived (s t : State) : Prop where
  pendingCfg : t.pendingCfg = s.pendingCfg := by rfl
  delayUs : t.delayUs = s.delayUs := by rfl
  parEn : t.parEn = s.parEn := by rfl
  parOdd : t.parOdd = s.parOdd := by rfl

namespace SameDerived

variable {s t u : State}

theorem trans (h : SameDerived s t) (h' : SameDerived t u) : SameDerived s u where
  pendingCfg := h'.pendingCfg.trans h.pendingCfg
  delayUs := h'.delayUs.trans h.delayUs
  parEn := h'.parEn.trans h.parEn
  parOdd := h'.parOdd.trans h.parOdd

theorem enq (b : Byte) (s : State) : SameDerived s (enq b s) := by
  unfold Machine.enq
  split
  · exact {}
  · exact {}

theorem takeFault (k : FaultKind) (s : State) : SameDerived s (takeFault k s) := by
  rcases takeFault_cases k s with ⟨op, -, e⟩ | ⟨-, e⟩ <;> rw [e] <;> exact {}

theorem withReg {α : Type} {r : Reg α} {n : RegName} {k : α → State} (h : ∀ v, SameDerived s (k v)) :
    SameDerived s (withReg r n s k) := by
  cases r with
  | unw => exact takeFault _ s
  | val v => exact h v

theorem enters {i : Instr} (h : Enters i s u) : SameDerived s u := by
  cases h <;> exact {}

theorem microStep (s : State) : SameDerived s (microStep s.phase s) := by
  unfold Machine.microStep
  cases s.phase with
  | idle => exact {}
  | pushWcfg => exact withReg fun _ => {}
  | pushRcfg =>
    refine withReg fun _ => ?_
    dsimp only
    split
    · exact {}
    · exact {}
  | pushRxen => exact {}
  | kickTest =>
    refine withReg fun _ => ?_
    dsimp only
    split
    · exact {}
    · split
      · exact {}
      · exact {}
  | kickDeq =>
    change SameDerived s (microKickDeq s)
    rcases microKickDeq_cases s with ⟨-, e⟩ | ⟨_, _, -, e⟩ <;> rw [e] <;> exact {}
  | kickWdata => exact withReg fun _ => withReg fun _ => withReg fun _ => {}
  | dispProbe =>
    change SameDerived s (microDispProbe s)
    rcases microDispProbe_cases s with ⟨-, e⟩ | ⟨-, -, e⟩ | ⟨-, -, e⟩ <;> rw [e] <;> exact {}
  | dispRx => exact withReg fun _ => {}
  | stxDeq =>
    change SameDerived s (microStxDeq s)
    rcases microStxDeq_cases s with ⟨-, e⟩ | ⟨_, _, -, e⟩ <;> rw [e] <;> exact {}
  | stxWdata => exact withReg fun _ => withReg fun _ => withReg fun _ => {}
  | stxClr => exact withReg fun _ => withReg fun _ => {}
  | stxWait =>
    refine withReg fun _ => withReg fun _ => ?_
    split
    · exact {}
    · exact {}
  | stxRxen => exact {}

end SameDerived

theorem exec_sameDerived {i : Instr} {s t : State} (e : exec i s = .next t)
    (notApply : ∀ baud d7 st2 par, i ≠ .applyConfig baud d7 st2 par) : SameDerived s t := by
  cases exec_ran e with
  | applied => exact (notApply _ _ _ _ rfl).elim
  | waited | refused | answered | sentConfig | sent | sentAndKept => exact {}
  | enqueued b => exact .enq b s
  | micro h => exact (SameDerived.enters h).trans (.microStep _)

/-- Settles O35: of an instruction's operations only `applyRegs` writes the four registers. -/
theorem onlyApplyWritesTheDerivedRegisters : Obligations.OnlyApplyWritesTheDerivedRegisters := by
  intro i s t e notApply
  obtain ⟨pending, delay, en, odd⟩ := exec_sameDerived e notApply
  exact ⟨pending, delay, en, odd⟩

/-! ### PUSH_CONFIG (R121) -/

theorem microPushWcfg_unw {s : State} (h : s.pendingCfg = .unw) :
    microPushWcfg s = takeFault (.unwritten .pendingCfg) s := by
  rw [microPushWcfg, h, withReg_unw]

theorem microPushRcfg_mismatch {s : State} {c : Word} (hc : s.curCfg = .val c)
    (echo : xferResp s.params.rcfgWord s &&& s.params.echoMask ≠ c &&& s.params.echoMask) :
    microPushRcfg s = complete 0x8 (plain .configRejected) (sendAndKeep s.params.rcfgWord s) := by
  rw [microPushRcfg, hc, withReg_val]
  exact if_neg (mt beq_iff_eq.1 echo)

/-- A read-back that differs in ECHO_MASK rejects the configuration. -/
theorem exec_pushConfig_mismatch {s : State} {c : Word} (hp : s.phase = .pushRcfg) (hc : s.curCfg = .val c)
    (echo : xferResp s.params.rcfgWord s &&& s.params.echoMask ≠ c &&& s.params.echoMask) :
    exec .pushConfig s = .next { s with
      phase := .idle, tResp := .unw, tByte := .unw, env := spendAnswer s.env
      result := some (plain .configRejected)
      history := s.history ++ [xferEvent s.params.rcfgWord s.env, .done 0x8 (plain .configRejected)] } := by
  rw [exec_eq_microStep hp, microStep, microPushRcfg_mismatch hc echo, complete_eq, sendAndKeep, xfer_eq]
  simp

/-- Settles O16: PUSH_WCFG with and without a target, PUSH_RCFG with both echoes, and PUSH_RXEN. -/
theorem pushConfigRunsItsMicroSteps : Obligations.PushConfigRunsItsMicroSteps := by
  refine fun s => ⟨fun p idle hp => ?wcfg, fun idle hp => ?unwritten, fun c resp hp hc hr => ?rcfg, fun hp => ?rxen⟩
  case wcfg =>
    rw [exec_pushConfig_start idle, microPushWcfg_val (by exact hp), sendConfig, xfer_eq, startRequest_eq]
    simp [setPhase]
  case unwritten =>
    rw [exec_pushConfig_start idle, microPushWcfg_unw (by exact hp), takeFault_request _ rfl, startRequest_eq]
    simp [setPhase, plain, idle]
  case rcfg =>
    subst hr
    by_cases echo : xferResp s.params.rcfgWord s &&& s.params.echoMask = c &&& s.params.echoMask
    · rw [if_pos (by exact echo), exec_eq_microStep hp, microStep, microPushRcfg_match hc (beq_iff_eq.2 echo), sendAndKeep,
        xfer_eq]
      rfl
    · rw [if_neg (by exact echo)]
      exact exec_pushConfig_mismatch hp hc echo
  case rxen =>
    rw [exec_eq_microStep hp, microStep, microPushRxen, complete_eq, sendData, xfer_eq]
    simp [plain]

/-- RM is set in `cur_cfg` and lies in ECHO_MASK (R13, R80). -/
theorem ConfigInv.curCfg_and_echoMask_ne_zero {s : State} {c : Word} (H : ConfigInv s) (hc : s.curCfg = .val c) :
    c &&& s.params.echoMask ≠ 0 := by
  have constant : c &&& 0xF780 = 0xC400 := (configurationConstantBitsHold s c H).1 (.inl hc)
  have ⟨layout, _⟩ := H
  rw [echoMask_default layout]
  intro clear
  have rm : c &&& 0xF780 &&& 0x0FFF = c &&& 0x0FFF &&& 0xF780 := by rw [BitVec.and_assoc, BitVec.and_assoc]; rfl
  rw [constant, clear] at rm
  exact absurd rm (by decide)

/-- Settles O17: a failed exchange reads as 0x0000, which `cur_cfg` never equals in ECHO_MASK. -/
theorem failedReadBackAlwaysRejects : Obligations.FailedReadBackAlwaysRejects := by
  intro s c H hp hc failed
  have resp : xferResp s.params.rcfgWord s = 0 := by rw [xferResp, failed]; rfl
  have echo : xferResp s.params.rcfgWord s &&& s.params.echoMask ≠ c &&& s.params.echoMask := by
    rw [resp]
    exact fun e => H.curCfg_and_echoMask_ne_zero hc (e.symm.trans BitVec.zero_and)
  rw [exec_pushConfig_mismatch hp hc echo, xferEvent, failed]
  rfl

/-! ### KICK (R123, R124) -/

theorem microKickTest_unw {s : State} (h : s.curCfg = .unw) :
    microKickTest s = takeFault (.unwritten .curCfg) s := by
  rw [microKickTest, h, withReg_unw]

/-- With TM set already nothing is sent. -/
theorem microKickTest_armed {s : State} {c : Word} (hc : s.curCfg = .val c) (tm : c &&& s.params.tmMask ≠ 0) :
    microKickTest s = complete 0x9 (plain .ok) s := by
  rw [microKickTest, hc, withReg_val]
  exact if_pos (bne_iff_ne.2 tm)

/-- With TM clear the armed word is sent, and T of the response decides. -/
theorem microKickTest_arms {s : State} {c : Word} (hc : s.curCfg = .val c) (tm : c &&& s.params.tmMask = 0) :
    microKickTest s =
      if respT s.params (xferResp (withTm s.params c) s) then
        setPhase .kickDeq { sendConfig (withTm s.params c) s with tResp := .val (xferResp (withTm s.params c) s) }
      else
        complete 0x9 (plain .ok)
          { sendConfig (withTm s.params c) s with tResp := .val (xferResp (withTm s.params c) s) } := by
  have clear : ¬ tmSet s.params c = true := by rw [tmSet, tm]; decide
  rw [microKickTest, hc, withReg_val, if_neg clear]

/-- Settles O19: KICK_TEST with TM clear, with TM set, and without a configuration. -/
theorem kickTestArmsTransmit : Obligations.KickTestArmsTransmit := by
  refine fun s idle => ⟨fun c resp hc tm hr => ?clear, fun c hc tm => ?set, fun hc => ?unwritten⟩
  case clear =>
    subst hr
    rw [exec_kick_start idle, microKickTest_arms (by exact hc) (by exact tm)]
    by_cases ready : respT s.params (xferResp (withTm s.params c) s) = true
    · rw [if_pos (by exact ready), if_pos (by exact ready), sendConfig, xfer_eq, startRequest_eq]
      simp [setPhase, withTm, xferResp]
    · rw [if_neg (by exact ready), if_neg (by exact ready), complete_eq, sendConfig, xfer_eq, startRequest_eq]
      simp [setPhase, plain, idle, withTm]
  case set =>
    rw [exec_kick_start idle, microKickTest_armed (by exact hc) (by exact tm), complete_eq, startRequest_eq]
    simp [setPhase, plain, idle]
  case unwritten =>
    rw [exec_kick_start idle, microKickTest_unw (by exact hc), takeFault_request _ rfl, startRequest_eq]
    simp [setPhase, plain, idle]

/-! ### The data word of the parity registers (R125) -/

theorem regParMode_eq (en odd : Bool) :
    regParMode en odd = if en = false then .none else if odd = false then .even else .odd := by
  cases en <;> cases odd <;> rfl

section

variable {s : State} {b : Byte} {en odd : Bool} {k : Word → State}

theorem withDataWord_val (he : s.parEn = .val en) (ho : s.parOdd = .val odd) :
    withDataWord b s k = k (dataWord s.params b (regParMode en odd)) := by
  rw [withDataWord, he, withReg_val, ho, withReg_val]

theorem withDataWord_parEn_unw (he : s.parEn = .unw) :
    withDataWord b s k = takeFault (.unwritten .parEn) s := by
  rw [withDataWord, he, withReg_unw]

theorem withDataWord_parOdd_unw (he : s.parEn = .val en) (ho : s.parOdd = .unw) :
    withDataWord b s k = takeFault (.unwritten .parOdd) s := by
  rw [withDataWord, he, withReg_val, ho, withReg_unw]

end

theorem microKickWdata_val {s : State} {b : Byte} (hb : s.tByte = .val b) :
    microKickWdata s = withDataWord b s fun w => complete 0x9 (plain .ok) (sendData w s) := by
  rw [microKickWdata, hb, withReg_val]

/-- Settles O20: KICK_DEQ with a byte and without, and KICK_WDATA with both parity registers written and with either unwritten. -/
theorem kickSendsAtMostOneByte : Obligations.KickSendsAtMostOneByte := by
  refine fun s => ⟨fun b bs hp front => ?byte, fun hp empty => ?empty, fun b en odd hp hb he ho => ?data,
    fun b hp hb he => ?parEn, fun b en hp hb he ho => ?parOdd⟩
  case byte => rw [exec_eq_microStep hp, microStep, microKickDeq_cons front]
  case empty => rw [exec_eq_microStep hp, microStep, microKickDeq_nil empty, plain]
  case data =>
    rw [exec_eq_microStep hp, microStep, microKickWdata_val hb, withDataWord_val he ho, regParMode_eq, complete_eq, sendData,
      xfer_eq]
    simp [plain]
  case parEn =>
    rw [exec_eq_microStep hp, microStep, microKickWdata_val hb, withDataWord_parEn_unw he, takeFault_request _ hp, plain]
  case parOdd =>
    rw [exec_eq_microStep hp, microStep, microKickWdata_val hb, withDataWord_parOdd_unw he ho, takeFault_request _ hp, plain]

/-! ### SERVICE_TX (R126, R127) -/

theorem microStxWdata_val {s : State} {b : Byte} (hb : s.tByte = .val b) :
    microStxWdata s = withDataWord b s fun w => endOperation (sendData w s) := by
  rw [microStxWdata, hb, withReg_val]

/-- Settles O21: STX_DEQ with a byte, and STX_WDATA with both parity registers written and with either unwritten. -/
theorem serviceTxSendsTheOldestByte : Obligations.ServiceTxSendsTheOldestByte := by
  refine fun s => ⟨fun b bs hp front => ?byte, fun b en odd hp hb he ho => ?data, fun b hp hb he => ?parEn,
    fun b en hp hb he ho => ?parOdd⟩
  case byte => rw [exec_eq_microStep hp, microStep, microStxDeq_cons front]
  case data =>
    rw [exec_eq_microStep hp, microStep, microStxWdata_val hb, withDataWord_val he ho, regParMode_eq, endOperation_eq, sendData,
      xfer_eq]
  case parEn =>
    rw [exec_eq_microStep hp, microStep, microStxWdata_val hb, withDataWord_parEn_unw he, takeFault_dispatch _ hp]
  case parOdd =>
    rw [exec_eq_microStep hp, microStep, microStxWdata_val hb, withDataWord_parOdd_unw he ho, takeFault_dispatch _ hp]

theorem microStxClr_delayUs_unw {s : State} (hd : s.delayUs = .unw) :
    microStxClr s = takeFault (.unwritten .delayUs) s := by
  rw [microStxClr, hd, withReg_unw]

theorem microStxClr_curCfg_unw {s : State} {d : Word} (hd : s.delayUs = .val d) (hc : s.curCfg = .unw) :
    microStxClr s = takeFault (.unwritten .curCfg) s := by
  rw [microStxClr, hd, withReg_val, hc, withReg_unw]

theorem microStxWait_holds {s : State} {d : Word} {us : Nat} (hd : s.delayUs = .val d) (hu : s.waitElapsed = .val us)
    (short : us < d.toNat) : microStxWait s = s := by
  rw [microStxWait, hd, withReg_val, hu, withReg_val, if_pos short]

/-- Settles O22: STX_DEQ on an empty queue, STX_CLR and its two faults, STX_WAIT before and after the delay, and STX_RXEN. -/
theorem serviceTxReleasesTheLine : Obligations.ServiceTxReleasesTheLine := by
  refine fun s => ⟨fun hp empty => ?empty, fun d c hp hd hc => ?clear, fun hp hd => ?delayUs, fun d hp hd hc => ?curCfg,
    fun d us hp hd hu => ?wait, fun hp => ?rxen⟩
  case empty => rw [exec_eq_microStep hp, microStep, microStxDeq_nil empty]
  case clear =>
    rw [exec_eq_microStep hp, microStep, microStxClr_val hd hc, sendConfig, xfer_eq, withoutTm]
    simp [logEvent]
  case delayUs => rw [exec_eq_microStep hp, microStep, microStxClr_delayUs_unw hd, takeFault_dispatch _ hp]
  case curCfg => rw [exec_eq_microStep hp, microStep, microStxClr_curCfg_unw hd hc, takeFault_dispatch _ hp]
  case wait =>
    rw [exec_eq_microStep hp, microStep]
    by_cases short : us < d.toNat
    · rw [if_pos short, microStxWait_holds hd hu short]
    · rw [if_neg short, microStxWait_ends hd hu (Nat.le_of_not_lt short), logEvent]
  case rxen => rw [exec_eq_microStep hp, microStep, microStxRxen, endOperation_eq, sendData, xfer_eq]

/-! ### SERVICE_RX (R128) -/

/-- Settles O24: the byte is `respByte`, bits 7 to 0 by R6's defaults, and delivering it ends the dispatch. -/
theorem serviceRxDeliversOneByte : Obligations.ServiceRxDeliversOneByte := by
  intro s resp hp hr
  refine ⟨respByte s.params resp, rfl, fun layout => ?byte, ?delivered⟩
  case byte => rw [respByte_default layout, BitVec.setWidth_eq_extractLsb' (by decide)]
  case delivered =>
    rw [exec_eq_microStep hp, microStep, microDispRx, hr, withReg_val, endOperation_eq]
    rfl

end Sys2Proof.Machine

/-! The Interrupt Dispatcher (43_dispatch.md): what an edge does, how IRQ_DISPATCH starts and where its probe leads, and that a dispatch
and its service routines leave the request port and `result` alone. -/

namespace Sys2Proof.Machine

/-! ### The edge latch (R131) -/

/-- Settles O27: the IRQ source's move is `irqEdge`, whatever the phase. -/
theorem irqEdgeSetsTheLatch : Obligations.IrqEdgeSetsTheLatch := by
  intro s port move
  rw [step_move _ s port move, runMove_irqSource, irqEdge]
  rfl

/-! ### The start and the probe (R133 to R135) -/

/-- At IDLE with an edge pending the start and the probe are one micro-step. -/
theorem exec_irqDispatch_start {s : State} (idle : s.phase = .idle) (edge : s.irqPending = true) :
    exec .irqDispatch s = .next (microDispProbe (enterDispatch s)) := by
  simp only [exec, execIrqDispatch, idle, edge, if_true]

/-- Settles O26: the three outcomes of the probe, receive-ready before transmit-empty before spurious. -/
theorem irqDispatchProbesAndBranches : Obligations.IrqDispatchProbesAndBranches := by
  rintro s _ idle edge rfl
  rw [exec_irqDispatch_start idle edge]
  rcases microDispProbe_cases (enterDispatch s) with ⟨r, e⟩ | ⟨r, t, e⟩ | ⟨r, t, e⟩ <;>
    rw [respR, xferResp, enterDispatch_params, enterDispatch_env] at r
  case inl =>
    simp only [e, r, true_or, if_true]
    rfl
  all_goals rw [respT, xferResp, enterDispatch_params, enterDispatch_env] at t
  case inr.inl =>
    simp only [e, r, t, or_true, if_true, Bool.false_eq_true, if_false]
    rfl
  case inr.inr =>
    simp only [e, r, t, or_self, Bool.false_eq_true, if_false]
    rfl

/-! ### The request port and `result` (R26, R140) -/

/-- The state with other contents on the request port and in `result`. -/
def withRequestPort (req : Option Request) (res : Option Result) (s : State) : State :=
  { s with hostReq := req, result := res }

section

variable {req : Option Request} {res : Option Result} {s : State}

theorem takeFault_withRequestPort (k : FaultKind) (noHost : hostOp s.phase = none) :
    takeFault k (withRequestPort req res s) = withRequestPort req res (takeFault k s) := by
  rw [takeFault_dispatch k rfl noHost, takeFault_dispatch (s := withRequestPort req res s) k rfl noHost]
  rfl

theorem withReg_withRequestPort {α : Type} {r : Reg α} {n : RegName} {k k' : α → State} (noHost : hostOp s.phase = none)
    (h : ∀ v, k' v = withRequestPort req res (k v)) :
    withReg r n (withRequestPort req res s) k' = withRequestPort req res (withReg r n s k) := by
  cases r with
  | unw => exact takeFault_withRequestPort _ noHost
  | val v => exact h v

theorem microDispProbe_withRequestPort :
    microDispProbe (withRequestPort req res s) = withRequestPort req res (microDispProbe s) := by
  simp only [microDispProbe, apply_ite (withRequestPort req res)]
  rfl

theorem microStxDeq_withRequestPort :
    microStxDeq (withRequestPort req res s) = withRequestPort req res (microStxDeq s) := by
  cases hq : s.txq with
  | nil =>
    rw [microStxDeq_nil hq, microStxDeq_nil (s := withRequestPort req res s) hq]
    rfl
  | cons b bs =>
    rw [microStxDeq_cons hq, microStxDeq_cons (s := withRequestPort req res s) hq]
    rfl

/-- A micro-step of a dispatch neither reads nor writes the request port and `result`, not even where it takes a fault. -/
theorem microStep_withRequestPort (noHost : hostOp s.phase = none) :
    microStep s.phase (withRequestPort req res s) = withRequestPort req res (microStep s.phase s) := by
  cases hp : s.phase with
  | pushWcfg | pushRcfg | pushRxen | kickTest | kickDeq | kickWdata =>
    rw [hp] at noHost
    cases noHost
  | idle | stxRxen => rfl
  | dispProbe => exact microDispProbe_withRequestPort
  | dispRx => exact withReg_withRequestPort noHost fun _ => rfl
  | stxDeq => exact microStxDeq_withRequestPort
  | stxWdata =>
    exact withReg_withRequestPort noHost fun _ => withReg_withRequestPort noHost fun _ =>
      withReg_withRequestPort noHost fun _ => rfl
  | stxClr => exact withReg_withRequestPort noHost fun _ => withReg_withRequestPort noHost fun _ => rfl
  | stxWait =>
    refine withReg_withRequestPort noHost fun _ => withReg_withRequestPort noHost fun _ => ?_
    rw [apply_ite (withRequestPort req res)]
    rfl

end

section

variable {i : Instr} (hi : i = .irqDispatch ∨ i = .serviceRx ∨ i = .serviceTx)
include hi

/-- An operation of a dispatch waits, unless it is in progress, or is IRQ_DISPATCH at IDLE with an edge to take. -/
theorem exec_dispatch_waits {s : State} (notInProgress : phaseOp s.phase ≠ some i)
    (notStarting : ¬ (i = .irqDispatch ∧ s.phase = .idle ∧ s.irqPending = true)) : exec i s = .next s := by
  refine operationsWaitOutsideTheirPhases i s ?request ?notEnqueue notInProgress ?notDequeue fun idle => ?atIdle
  case request => rcases hi with rfl | rfl | rfl <;> rfl
  case notEnqueue =>
    rintro b rfl
    simp at hi
  case notDequeue =>
    rintro rfl
    simp at hi
  case atIdle =>
    rcases hi with rfl | rfl | rfl
    · exact .inr (.inr (.inr ⟨rfl, by simpa [idle] using notStarting⟩))
    · exact .inr (.inr (.inl rfl))
    · exact .inr (.inl rfl)

theorem hostOp_eq_none_of_dispatch {p : Phase} (h : phaseOp p = some i) : hostOp p = none := by
  cases p with
  | pushWcfg | pushRcfg | pushRxen | kickTest | kickDeq | kickWdata =>
    cases h
    simp at hi
  | idle | dispProbe | dispRx | stxDeq | stxWdata | stxClr | stxWait | stxRxen => rfl

end

/-- Settles O28: the instruction runs a micro-step of its own phase, starts the dispatch, or waits, and none of these
reads or writes the two. -/
theorem dispatchIgnoresRequestAndResult : Obligations.DispatchIgnoresRequestAndResult := by
  intro i s t req res hi e
  change exec i (withRequestPort req res s) = .next (withRequestPort req res t)
  by_cases inProgress : phaseOp s.phase = some i
  · rw [exec_inProgress inProgress] at e
    cases e
    rw [exec_inProgress (s := withRequestPort req res s) inProgress,
      ← microStep_withRequestPort (hostOp_eq_none_of_dispatch hi inProgress)]
    rfl
  by_cases starting : i = .irqDispatch ∧ s.phase = .idle ∧ s.irqPending = true
  · obtain ⟨rfl, idle, edge⟩ := starting
    rw [exec_irqDispatch_start idle edge] at e
    cases e
    rw [exec_irqDispatch_start (s := withRequestPort req res s) idle edge, ← microDispProbe_withRequestPort]
    rfl
  · rw [exec_dispatch_waits hi inProgress starting] at e
    cases e
    exact exec_dispatch_waits (s := withRequestPort req res s) hi inProgress starting

end Sys2Proof.Machine

/-! The Host's interface (44_host_interface.md): what a move of the Host does at each command of its script, and that the
Line Sink's choice reaches nothing but the sink. -/

namespace Sys2Proof.Machine

/-! ### The Host's discipline, the submit loop, line configuration and the session (R141 to R145) -/

theorem hostMove_waits {s : State} (outstanding : hostWaits s = true) : hostMove s = .next s := by
  unfold hostMove
  split
  · rfl
  · rw [if_pos outstanding]

/-- Settles O55: a request of its own makes the Host wait, and the move is spent. -/
theorem hostWaitsForItsRequest : Obligations.HostWaitsForItsRequest := by
  intro s hp hm outstanding
  rw [step_move _ s hp hm]
  exact hostMove_waits (s := takeMove s) outstanding

/-- The rest of a WRITE is decided by the answer of the queue write port: FULL where the queue is full, else OK. -/
theorem runCmd_write_cons (b : Byte) (bs : List Byte) (s : State) :
    runCmd (.write (b :: bs)) s = .next (afterWriteEnqueue b bs (enq b s)) := rfl

/-- Settles O57: at a byte, by whether the queue is full; at the end of the bytes, the last KICK. -/
theorem submitLoopKicksAndRetries : Obligations.SubmitLoopKicksAndRetries := by
  intro s a hp hm hw
  refine ⟨fun b bs hc => ?byte, fun hc => ?last⟩ <;> rw [step_host_cmd _ a s hp hm hw hc]
  case byte =>
    rw [runCmd_write_cons]
    by_cases full : s.txq.length = (s.params.qcap : Nat)
    · rw [if_pos full, enq_full b { takeMove s with host := a } full]
      rfl
    · rw [if_neg full, enq_room b { takeMove s with host := a } full]
      rfl
  case last => rfl

/-- Settles O58: each clause is one command of the Host. -/
theorem lineConfigurationAppliesThenPushes : Obligations.LineConfigurationAppliesThenPushes := by
  intro s a hp hm hw
  refine ⟨fun baud d7 st2 par hc => ?configure, fun r hc => ?request, fun hc => ?report⟩ <;>
    rw [step_host_cmd _ a s hp hm hw hc, runCmd]
  case configure => rfl
  case request => rfl
  case report => rfl

/-- Taking a command off the script leaves the Open-Session Marker as it was. -/
theorem session_of_nextCmd {a b : HostAgent} {c : HostCmd} (h : nextCmd a = some (c, b)) : b.session = a.session := by
  unfold nextCmd at h
  split at h <;> cases h <;> rfl

/-- Settles O59: open branches on the marker, which taking the command off the script left as it was. -/
theorem sessionAndWriteRoomStayAtTheHost : Obligations.SessionAndWriteRoomStayAtTheHost := by
  intro s a hp hm hw
  refine ⟨fun hc => ?opened, fun hc => ?closed, fun hc => ?room⟩ <;> rw [step_host_cmd _ a s hp hm hw hc, runCmd]
  case opened =>
    rw [← session_of_nextCmd hc]
    obtain ⟨script, current, session, replies⟩ := a
    cases session with
    | false => rfl
    | true => rfl
  case closed => rfl
  case room => rfl

/-! ### The Line Sink's choice (R146) -/

/-- The state with other draws to come at the Line Sink and other bytes kept there. -/
def withSink (draws : List Bool) (line : List Byte) (s : State) : State :=
  { s with env := { s.env with sinkDraws := draws, line := line } }

/-- An instruction that runs a micro-step runs the one of the phase it enters. -/
theorem Enters.exec_eq {i : Instr} {s u : State} (h : Enters i s u) : exec i s = .next (microStep u.phase u) := by
  cases h with
  | inProgress h => exact exec_inProgress h
  | dequeue h =>
    rcases h with h | h <;> rw [h]
    · exact exec_dequeue_kickDeq h
    · exact exec_dequeue_stxDeq h
  | push idle => exact exec_pushConfig_start idle
  | kick idle => exact exec_kick_start idle
  | dispatch idle edge => exact exec_irqDispatch_start idle edge

/-- An operation of micro-steps that enters no phase waits. -/
theorem exec_eq_self_of_not_enters {i : Instr} {s : State} (request : formatOf i = .request)
    (notOneStep : oneStep i = false) (notEnqueue : ∀ b, i ≠ .enqueue b) (waits : ∀ u, ¬ Enters i s u) :
    exec i s = .next s := by
  obtain ⟨t, e⟩ := exec_next i s
  rw [e]
  cases exec_ran e with
  | waited => rfl
  | micro h => exact absurd h (waits _)
  | refused _ _ _ hi | answered _ _ _ hi => cases hi.symm.trans notOneStep
  | applied => cases notOneStep
  | enqueued b => exact absurd rfl (notEnqueue b)
  | sentConfig => cases request
  | sent hw | sentAndKept hw => cases request.symm.trans hw

section

variable {draws : List Bool} {line : List Byte} {s : State}

theorem Enters.withSink {i : Instr} {u : State} (h : Enters i s u) :
    Enters i (withSink draws line s) (withSink draws line u) := by
  cases h with
  | inProgress h => exact .inProgress h
  | dequeue h => exact .dequeue h
  | push idle => exact .push (s := Machine.withSink draws line s) idle
  | kick idle => exact .kick (s := Machine.withSink draws line s) idle
  | dispatch idle edge => exact .dispatch (s := Machine.withSink draws line s) idle edge

/-- Only SERVICE_RX in its own phase enters the delivery. -/
theorem Enters.of_dispRx {i : Instr} {u : State} (h : Enters i s u) (hp : u.phase = .dispRx) :
    i = .serviceRx ∧ s.phase = .dispRx := by
  cases h with
  | inProgress h =>
    rw [hp] at h
    cases h
    exact ⟨rfl, hp⟩
  | dequeue h => rcases h with h | h <;> cases h.symm.trans hp
  | push | kick | dispatch => cases hp

theorem xfer_withSink (w : Word) : xfer w (withSink draws line s) = withSink draws line (xfer w s) := by
  have spent : spendAnswer (withSink draws line s).env =
      (withSink draws line { s with env := spendAnswer s.env }).env := by
    unfold spendAnswer withSink
    cases s.env.answers <;> rfl
  rw [xfer, spent]
  rfl

theorem sendConfig_withSink (w : Word) :
    sendConfig w (withSink draws line s) = withSink draws line (sendConfig w s) :=
  xfer_withSink (s := { s with curCfg := .val w }) w

theorem sendAndKeep_withSink (w : Word) :
    sendAndKeep w (withSink draws line s) = withSink draws line (sendAndKeep w s) := by
  rw [sendAndKeep, xfer_withSink]
  rfl

theorem enq_withSink (b : Byte) : enq b (withSink draws line s) = withSink draws line (enq b s) := by
  by_cases full : s.txq.length = (s.params.qcap : Nat)
  · rw [enq_full b s full, enq_full b (withSink draws line s) full]
    rfl
  · rw [enq_room b s full, enq_room b (withSink draws line s) full]
    rfl

theorem takeFault_withSink (k : FaultKind) :
    takeFault k (withSink draws line s) = withSink draws line (takeFault k s) := by
  cases hop : hostOp s.phase with
  | none =>
    rw [takeFault_dispatch k rfl hop, takeFault_dispatch (s := withSink draws line s) k rfl hop]
    rfl
  | some op =>
    rw [takeFault_request k rfl hop, takeFault_request (s := withSink draws line s) k rfl hop]
    rfl

theorem withReg_withSink {α : Type} {r : Reg α} {n : RegName} {k k' : α → State}
    (h : ∀ v, k' v = withSink draws line (k v)) :
    withReg r n (withSink draws line s) k' = withSink draws line (withReg r n s k) := by
  cases r with
  | unw => exact takeFault_withSink _
  | val v => exact h v

theorem atIdle_withSink {start : State → State}
    (h : start (withSink draws line s) = withSink draws line (start s)) :
    atIdle (withSink draws line s) start = withSink draws line (atIdle s start) := by
  rw [atIdle, atIdle, apply_ite (withSink draws line), ← h]
  rfl

theorem refusedRequest_withSink (op : BitVec 4) (ops : Operands) (k : FaultKind) :
    refusedRequest op ops k (withSink draws line s) = withSink draws line (refusedRequest op ops k s) :=
  atIdle_withSink rfl

theorem pureRequest_withSink (op : BitVec 4) (ops : Operands) (d : ResultData) :
    pureRequest op ops d (withSink draws line s) = withSink draws line (pureRequest op ops d s) :=
  atIdle_withSink rfl

theorem parRequest_withSink (op : BitVec 4) (ops : Operands) (par : BitVec 2) {go go' : ParMode → State}
    (h : ∀ m, go' m = withSink draws line (go m)) :
    parRequest op ops par (withSink draws line s) go' = withSink draws line (parRequest op ops par s go) := by
  unfold parRequest
  cases parModeOf par with
  | none => exact refusedRequest_withSink op ops _
  | some m => exact h m

/-- A micro-step other than the delivery neither reads nor writes anything of the Line Sink. -/
theorem microStep_withSink (notDelivering : s.phase ≠ .dispRx) :
    microStep s.phase (withSink draws line s) = withSink draws line (microStep s.phase s) := by
  cases hp : s.phase with
  | idle => rfl
  | pushWcfg => exact withReg_withSink fun p => congrArg (setPhase _) (sendConfig_withSink p)
  | pushRcfg =>
    refine withReg_withSink fun _ => ?_
    rw [apply_ite (withSink draws line), sendAndKeep_withSink]
    rfl
  | pushRxen => exact congrArg (complete _ _) (xfer_withSink _)
  | kickTest =>
    refine withReg_withSink fun _ => ?_
    simp only [apply_ite (withSink draws line), sendConfig_withSink]
    rfl
  | kickDeq =>
    rw [microStep, microStep, microKickDeq, microKickDeq, show deqResult (withSink draws line s) = deqResult s from rfl]
    cases deqResult s with
    | none => rfl
    | some b => rfl
  | kickWdata =>
    exact withReg_withSink fun _ => withReg_withSink fun _ => withReg_withSink fun _ =>
      congrArg (complete _ _) (xfer_withSink _)
  | dispProbe =>
    simp only [microStep, microDispProbe, apply_ite (withSink draws line)]
    rw [sendAndKeep_withSink]
    rfl
  | dispRx => exact absurd hp notDelivering
  | stxDeq =>
    rw [microStep, microStep, microStxDeq, microStxDeq, show deqResult (withSink draws line s) = deqResult s from rfl]
    cases deqResult s with
    | none => rfl
    | some b => rfl
  | stxWdata =>
    exact withReg_withSink fun _ => withReg_withSink fun _ => withReg_withSink fun _ =>
      congrArg endOperation (xfer_withSink _)
  | stxClr =>
    refine withReg_withSink fun _ => withReg_withSink fun _ => ?_
    rw [sendConfig_withSink]
    rfl
  | stxWait =>
    refine withReg_withSink fun _ => withReg_withSink fun _ => ?_
    rw [apply_ite (withSink draws line)]
    rfl
  | stxRxen => exact congrArg endOperation (xfer_withSink _)

/-- An instruction that delivers nothing does the same with other contents of the Line Sink, and leaves those as they were. -/
theorem exec_withSink {i : Instr} {t : State} (e : exec i s = .next t)
    (notDelivering : ¬ (i = .serviceRx ∧ s.phase = .dispRx)) :
    exec i (withSink draws line s) = .next (withSink draws line t) := by
  by_cases running : ∃ u, Enters i s u
  · obtain ⟨u, h⟩ := running
    rw [h.exec_eq] at e
    cases e
    rw [← microStep_withSink fun hp => notDelivering (h.of_dispRx hp)]
    exact h.withSink.exec_eq
  have waits (u : State) : ¬ Enters i (withSink draws line s) u := fun h =>
    running ⟨_, h.withSink (draws := s.env.sinkDraws) (line := s.env.line)⟩
  have waited (request : formatOf i = .request) (notOneStep : oneStep i = false) (notEnqueue : ∀ b, i ≠ .enqueue b) :
      exec i (withSink draws line s) = .next (withSink draws line t) := by
    rw [exec_eq_self_of_not_enters request notOneStep notEnqueue fun u h => running ⟨u, h⟩] at e
    cases e
    exact exec_eq_self_of_not_enters request notOneStep notEnqueue waits
  cases i with
  | pushConfig | kick | dequeue | irqDispatch | serviceTx | serviceRx => exact waited rfl rfl nofun
  | writeConfig => cases e; exact congrArg _ (sendConfig_withSink _)
  | writeData => cases e; exact congrArg _ (xfer_withSink _)
  | readConfig | readData => cases e; exact congrArg _ (sendAndKeep_withSink _)
  | enqueue b => cases e; exact congrArg _ (enq_withSink b)
  | reserved0 | reservedF => cases e; exact congrArg _ (refusedRequest_withSink ..)
  | decodeStatus | baudIndex | delayOf => cases e; exact congrArg Host.Outcome.next (pureRequest_withSink ..)
  | encConfig | encData | parityBit =>
    cases e
    exact congrArg Host.Outcome.next (parRequest_withSink _ _ _ fun _ => pureRequest_withSink ..)
  | applyConfig =>
    cases e
    exact congrArg Host.Outcome.next (parRequest_withSink _ _ _ fun _ => atIdle_withSink rfl)

end

/-- The delivery uses one draw up, and whether it kept the byte is seen at the sink alone. -/
theorem microDispRx_nextDraw (ks : List Bool) (line : List Byte) (s : State) :
    ∃ t, ∀ k, ∃ draws' line', microDispRx (withSink (k :: ks) line s) = withSink draws' line' t := by
  unfold microDispRx
  cases hr : s.tResp with
  | unw =>
    refine ⟨takeFault (.unwritten .tResp) s, fun k => ⟨k :: ks, line, ?_⟩⟩
    rw [show (withSink (k :: ks) line s).tResp = .unw from hr, withReg_unw, takeFault_withSink]
  | val resp =>
    refine ⟨endOperation (logEvent (.deliver (respByte s.params resp)) s),
      fun k => ⟨ks, if k then line ++ [respByte s.params resp] else line, ?_⟩⟩
    rw [show (withSink (k :: ks) line s).tResp = .val resp from hr, withReg_val]
    rfl

/-- Whatever the next draw of the Line Sink is, an instruction ends in one and the same state but for the sink. -/
theorem exec_nextDraw (i : Instr) (ks : List Bool) (line : List Byte) (s : State) :
    ∃ t, ∀ k, ∃ draws' line', exec i (withSink (k :: ks) line s) = .next (withSink draws' line' t) := by
  by_cases delivering : i = .serviceRx ∧ s.phase = .dispRx
  · obtain ⟨rfl, hp⟩ := delivering
    obtain ⟨t, h⟩ := microDispRx_nextDraw ks line s
    refine ⟨t, fun k => ?_⟩
    obtain ⟨draws', line', e⟩ := h k
    exact ⟨draws', line', by rw [exec_eq_microStep (s := withSink (k :: ks) line s) hp, microStep, e]⟩
  · obtain ⟨t, e⟩ := exec_next i s
    exact ⟨t, fun k => ⟨k :: ks, line, exec_withSink e delivering⟩⟩

/-- Settles O25: both runs end in the state that `exec_nextDraw` gives, each with its own sink. -/
theorem lineSinkChoiceIsInvisible : Obligations.LineSinkChoiceIsInvisible := by
  intro i s t u k₁ k₂ ks et eu
  obtain ⟨v, h⟩ := exec_nextDraw i ks s.env.line s
  obtain ⟨_, _, e₁⟩ := h k₁
  obtain ⟨_, _, e₂⟩ := h k₂
  cases et.symm.trans e₁
  cases eu.symm.trans e₂
  rfl

end Sys2Proof.Machine

/-! Faults and completions (R153 to R157, R161): every step answers a next state; a fault or an answer ends its operation at IDLE; a step
records at most one fault, and records it in `faults`; and the ticks that end the wait of STX_WAIT. -/

namespace Sys2Proof.Machine

/-! ### No step stops the machine (R153) -/

theorem runRequest_next (r : Request) (s : State) : ∃ t, runRequest r s = .next t := by
  unfold runRequest
  split
  · exact ⟨_, rfl⟩
  · exact exec_next _ _

theorem sequencerMove_next (pick : Pick) (s : State) : ∃ t, sequencerMove pick s = .next t := by
  unfold sequencerMove
  split
  · exact exec_next _ s
  · split
    · exact ⟨_, rfl⟩
    · exact exec_next _ s
    · exact runRequest_next _ _

theorem runCmd_next (c : HostCmd) (s : State) : ∃ t, runCmd c s = .next t := by
  cases c with
  | write bs => cases bs <;> exact ⟨_, rfl⟩
  | openSession =>
    rw [runCmd]
    split <;> exact ⟨_, rfl⟩
  | _ => exact ⟨_, rfl⟩

theorem hostMove_next (s : State) : ∃ t, hostMove s = .next t := by
  unfold hostMove
  split
  · exact ⟨_, rfl⟩
  · split
    · exact ⟨_, rfl⟩
    · exact runCmd_next _ _

theorem runMove_next (m : Move) (s : State) : ∃ t, runMove m s = .next t := by
  cases m with
  | sequencer pick => exact sequencerMove_next pick s
  | host => exact hostMove_next s
  | irqSource | timeBase | reset => exact ⟨_, rfl⟩

/-- Settles O45: a word on the transfer port is executed, and otherwise an agent moves. -/
theorem stepNeverStops : Obligations.StepNeverStops := by
  intro s
  unfold step stepOnce
  split
  · exact exec_next _ _
  · exact runMove_next _ _

/-! ### A fault or an answer ends its operation (R26, R153, R156) -/

/-- The events added have places below the bound of `OrderedSince`. -/
theorem OrderedSince.place_lt {s t : State} {n : Nat} (H : OrderedSince s.history n t) {e : Event}
    (he : e ∈ newEvents s t) : e.place < n := by
  obtain ⟨es, ht, -, below⟩ := H
  rw [newEvents, ht, List.drop_left] at he
  exact below e he

/-- The Sequencer is at IDLE, or no fault and no answer to a request followed `h`: their places are 3 and 4. -/
def IdleOrOngoing (h : List Event) (s : State) : Prop := s.phase = .idle ∨ OrderedSince h 3 s

namespace IdleOrOngoing

variable {h : List Event} {s t : State}

theorem withReg {α : Type} {r : Reg α} {n : RegName} {k : α → State} (hk : ∀ v, IdleOrOngoing h (k v)) :
    IdleOrOngoing h (withReg r n s k) := by
  cases r with
  | unw => exact .inl (takeFault_phase ..)
  | val v => exact hk v

/-- A micro-step completes its operation, takes a fault, or adds only what reaches another agent and the start of a wait. -/
theorem microStep (H : OrderedSince h 1 s) : IdleOrOngoing h (microStep s.phase s) := by
  have sent (w : Word) : OrderedSince h 3 (xfer w s) := H.agent (xfer_history ..) rfl
  have dequeued : OrderedSince h 3 (deq s) := H.agent (deq_history s) rfl
  cases hp : s.phase with
  | idle => exact .inl hp
  | pushWcfg => exact withReg fun _ => .inr (sent _)
  | pushRcfg =>
    refine withReg fun _ => ?_
    dsimp only
    split
    · exact .inr (sent _)
    · exact .inl rfl
  | pushRxen => exact .inl rfl
  | kickTest =>
    refine withReg fun _ => ?_
    dsimp only
    split
    · exact .inl rfl
    · split
      · exact .inr (sent _)
      · exact .inl rfl
  | kickDeq =>
    change IdleOrOngoing h (microKickDeq s)
    rcases microKickDeq_cases s with ⟨-, e⟩ | ⟨b, bs, -, e⟩ <;> rw [e]
    · exact .inl rfl
    · exact .inr dequeued
  | kickWdata => exact withReg fun _ => withReg fun _ => withReg fun _ => .inl rfl
  | dispProbe =>
    change IdleOrOngoing h (microDispProbe s)
    rcases microDispProbe_cases s with ⟨-, e⟩ | ⟨-, -, e⟩ | ⟨-, -, e⟩ <;> rw [e] <;> exact .inr (sent _)
  | dispRx => exact withReg fun _ => .inl rfl
  | stxDeq =>
    change IdleOrOngoing h (microStxDeq s)
    rcases microStxDeq_cases s with ⟨-, e⟩ | ⟨b, bs, -, e⟩ <;> rw [e] <;> exact .inr dequeued
  | stxWdata => exact withReg fun _ => withReg fun _ => withReg fun _ => .inl rfl
  | stxClr =>
    refine withReg fun d => withReg fun c => .inr ?_
    have cleared : OrderedSince h 2 (sendConfig (withoutTm s.params c) s) := H.agent (sendConfig_history ..) rfl
    exact cleared.append (e := .waitBegin d) rfl (Nat.le_refl 2) (Nat.lt_succ_self 2)
  | stxWait =>
    refine withReg fun _ => withReg fun _ => .inr ?_
    split
    · exact H.unchanged rfl
    · exact H.agent rfl rfl
  | stxRxen => exact .inl rfl

end IdleOrOngoing

/-- Entering an operation adds at most the event of its request. -/
theorem Enters.orderedSince {i : Instr} {s u : State} (h : Enters i s u) : OrderedSince s.history 1 u := by
  have start : OrderedSince s.history 0 s := .refl s
  cases h with
  | inProgress | dequeue | dispatch => exact start.unchanged rfl
  | push | kick => exact (start.request ..).unchanged rfl

theorem exec_idleOrOngoing {i : Instr} {s t : State} (e : exec i s = .next t) : IdleOrOngoing s.history t := by
  have start : OrderedSince s.history 1 s := (OrderedSince.refl s).unchanged rfl
  cases exec_ran e with
  | waited => exact .inr (start.unchanged rfl)
  | refused | answered | applied => exact .inl rfl
  | enqueued b =>
    unfold enq
    split <;> exact .inr (start.agent rfl rfl)
  | micro h => exact .microStep h.orderedSince
  | sentConfig | sent | sentAndKept => exact .inr (start.agent rfl rfl)

/-- Settles O46: where an instruction does not end at IDLE, the events it added come before a fault or an answer in their order. -/
theorem faultOrCompletionReturnsToIdle : Obligations.FaultOrCompletionReturnsToIdle := by
  rintro i s t e ⟨ev, added, ends⟩
  refine (exec_idleOrOngoing e).resolve_right fun ongoing => absurd (ongoing.place_lt added) ?_
  rcases ends with ⟨k, rfl⟩ | ⟨op, r, rfl⟩
  · exact Nat.lt_irrefl 3
  · exact Nat.not_lt.2 (Nat.le_succ 3)

/-! ### The faults of a step (R155, R157) -/

/-- Of events that share one place a step adds at most one, for the places of its events strictly increase. -/
theorem OrderedSince.filter_newEvents_length_le_one {s t : State} {n m : Nat} (H : OrderedSince s.history n t)
    {q : Event → Bool} (share : ∀ e, q e = true → e.place = m) : ((newEvents s t).filter q).length ≤ 1 := by
  obtain ⟨es, ht, ordered, -⟩ := H
  rw [newEvents, ht, List.drop_left]
  by_contra many
  have two : 1 < (es.filter q).length := Nat.lt_of_not_le many
  have place (j : Nat) (hj : j < (es.filter q).length) : (es.filter q)[j].place = m :=
    share _ (List.of_mem_filter (List.getElem_mem hj))
  have increasing := List.pairwise_iff_getElem.1 (ordered.filter q) 0 1 (Nat.zero_lt_of_lt two) two Nat.zero_lt_one
  rw [place, place] at increasing
  exact Nat.lt_irrefl m increasing

/-- Every fault event after the first `n` events of the history has its kind in `faults`. -/
def FaultsListed (n : Nat) (s : State) : Prop :=
  ∀ k, .fault k ∈ s.history.drop n → ∃ e ∈ s.faults, e.kind = k

theorem mem_insertFault_self (e : FaultEntry) (fs : List FaultEntry) : e ∈ insertFault e fs := by
  unfold insertFault
  split
  · assumption
  · exact List.mem_append_right _ (List.mem_singleton_self e)

theorem mem_drop_concat {n : Nat} {h : List Event} {e f : Event} (hf : f ∈ (h ++ [e]).drop n) : f ∈ h.drop n ∨ f = e := by
  rw [List.drop_append] at hf
  exact (List.mem_append.1 hf).imp_right fun hf => List.mem_singleton.1 (List.mem_of_mem_drop hf)

namespace FaultsListed

variable {n : Nat} {s t : State}

theorem log {e : Event} (H : FaultsListed n s) (he : ∀ k, .fault k ≠ e) : FaultsListed n (logEvent e s) :=
  fun k hk => H k ((mem_drop_concat hk).resolve_right (he k))

theorem raise (H : FaultsListed n s) (k : FaultKind) (op : BitVec 4) : FaultsListed n (raise k op s) := by
  intro k' hk
  rcases mem_drop_concat hk with hk | hk
  · obtain ⟨e, he, kind⟩ := H k' hk
    exact ⟨e, mem_insertFault_of_mem he, kind⟩
  · injection hk with hk
    exact ⟨_, mem_insertFault_self .., hk.symm⟩

theorem enq (H : FaultsListed n s) (b : Byte) : FaultsListed n (enq b s) := by
  unfold Machine.enq
  split <;> exact log (s := { s with qAnswer := _, txq := _ }) H nofun

theorem timePasses (H : FaultsListed n s) (ticks : Nat) : FaultsListed n (timePasses ticks s) := by
  unfold Machine.timePasses
  split <;> exact H

theorem keptByMoves (n : Nat) : KeptByMoves (FaultsListed n) where
  req _ _ _ H := H.log nofun
  done _ _ _ H := H.log nofun
  raise k op _ H := H.raise k op
  setPhase _ _ H := H
  clearTemps _ H := H
  keepByte _ _ H := H
  keepResp _ _ H := H
  sendConfig _ _ H := H.log nofun
  xfer _ _ H := H.log nofun
  enq b _ H := H.enq b
  deq _ H := H.log nofun
  deliver _ _ H := H.log nofun
  apply _ _ _ _ _ H := H
  beginWait _ _ H := H.log nofun
  endWait _ H := H.log nofun
  takeEdge _ H := H
  dropPort _ H := H
  env _ _ H := H
  hostReq _ _ H := H
  host _ _ H := H
  irqEdge _ H := H.log nofun
  passTime ticks _ H := H.timePasses ticks

/-- The reset event leaves no history, so no fault event either. -/
theorem reset (n : Nat) (s : State) : FaultsListed n (resetEvent s) := by
  intro k hk
  cases List.mem_of_mem_drop hk

end FaultsListed

/-- Settles O47: the fault events of a step share one place, and every operation that logs one lists it. -/
theorem atMostOneFaultPerStep : Obligations.AtMostOneFaultPerStep := by
  intro s t e
  refine ⟨?atMostOne, ?listed⟩
  case atMostOne =>
    rcases step_orderedSince e with ⟨-, -, rfl⟩ | ordered
    · simp [newEvents, resetEvent, State.reset]
    · refine ordered.filter_newEvents_length_le_one (m := 3) fun ev isFault => ?_
      split at isFault
      · rfl
      · cases isFault
  case listed =>
    have start : FaultsListed s.history.length s := fun k hk => by rw [List.drop_length] at hk; cases hk
    exact step_keeps (FaultsListed.keptByMoves _) (fun u _ => .reset _ u) s t start e

/-! ### The ticks of the wait (R126, R161) -/

/-- Dividing `r` first and its rest together with `c` after it loses nothing. -/
theorem div_add_div_mod_add (r c : Nat) {hz : Nat} (pos : 0 < hz) : r / hz + (r % hz + c) / hz = (r + c) / hz :=
  calc r / hz + (r % hz + c) / hz
    _ = (r % hz + c + hz * (r / hz)) / hz := by rw [Nat.add_mul_div_left _ _ pos, Nat.add_comm]
    _ = (r + c) / hz := by rw [Nat.add_right_comm, Nat.mod_add_div]

/-- Time that passes in two parts is the time of both together: the rest of a microsecond is kept between them. -/
theorem timePasses_timePasses (a b : Nat) (s : State) : timePasses b (timePasses a s) = timePasses (a + b) s := by
  by_cases hp : s.phase = .stxWait
  · cases hw : s.waitElapsed with
    | unw => simp only [timePasses, hp, hw]
    | val n =>
      have first := timePasses_wait a n s hp hw
      rw [timePasses_wait b (n + (s.tickRest + a * 1000000) / s.params.tickHz) (timePasses a s) (first ▸ hp) (first ▸ rfl),
        timePasses_wait (a + b) n s hp hw, first]
      dsimp only
      have parts : s.tickRest + (a + b) * 1000000 = s.tickRest + a * 1000000 + b * 1000000 := by omega
      rw [parts, Nat.mod_add_mod, Nat.add_assoc n, div_add_div_mod_add _ _ s.params.tickHz.2]
  · rw [timePasses_other a s hp, timePasses_other b s hp, timePasses_other (a + b) s hp]

/-- Moves of any tick counts together let as much time pass as one move of all their ticks. -/
theorem foldl_timePasses (counts : List Nat) (a : Nat) (s : State) :
    counts.foldl (fun u ticks => timePasses ticks u) (timePasses a s) = timePasses (a + counts.sum) s := by
  induction counts generalizing a with
  | nil => rfl
  | cons b counts ih => rw [List.foldl_cons, timePasses_timePasses, ih, List.sum_cons, Nat.add_assoc]

/-- `d` whole microseconds have passed exactly when ceil(d * hz / 1000000) ticks were counted. -/
theorem microseconds_passed_iff {d hz ticks : Nat} (pos : 0 < hz) :
    d ≤ ticks * 1000000 / hz ↔ (d * hz + 999999) / 1000000 ≤ ticks := by
  rw [Nat.le_div_iff_mul_le pos]
  omega

section

variable {s : State} (hp : s.phase = .stxWait) (hw : s.waitElapsed = .val 0) (hr : s.tickRest = 0)
include hp hw hr

/-- The state after `ticks` ticks from the entry of STX_WAIT. -/
theorem timePasses_entry (ticks : Nat) :
    timePasses ticks s = { s with
      waitElapsed := .val (ticks * 1000000 / s.params.tickHz)
      tickRest := ticks * 1000000 % s.params.tickHz } := by
  rw [timePasses_wait ticks 0 s hp hw, hr, Nat.zero_add, Nat.zero_add]

theorem foldl_timePasses_entry (counts : List Nat) :
    counts.foldl (fun u ticks => timePasses ticks u) s = timePasses counts.sum s := by
  have unmoved : timePasses 0 s = s := by
    rw [timePasses_entry hp hw hr, Nat.zero_mul, Nat.zero_div, Nat.zero_mod, ← hw, ← hr]
  calc counts.foldl (fun u ticks => timePasses ticks u) s
    _ = counts.foldl (fun u ticks => timePasses ticks u) (timePasses 0 s) := by rw [unmoved]
    _ = timePasses counts.sum s := by rw [foldl_timePasses, Nat.zero_add]

end

/-- Settles O52: the counts add up as one move of all their ticks, whose whole microseconds are at least `d` exactly from the bound on. -/
theorem waitEndsAfterEnoughTicks : Obligations.WaitEndsAfterEnoughTicks := by
  intro s d counts hp hd hw hr
  have after := timePasses_entry hp hw hr counts.sum
  have enough := microseconds_passed_iff (d := d.toNat) (ticks := counts.sum) s.params.tickHz.2
  dsimp only
  rw [foldl_timePasses_entry hp hw hr, exec_eq_microStep (p := .stxWait) (after ▸ hp), microStep]
  split
  case isTrue passed =>
    rw [microStxWait_ends (after ▸ hd) (after ▸ rfl) (enough.2 passed), after, hr, logEvent]
  case isFalse short =>
    rw [microStxWait_holds (after ▸ hd) (after ▸ rfl) (Nat.lt_of_not_le (mt enough.1 short))]

end Sys2Proof.Machine

/-! The reset event (R148, R169), and the end of a run (R184): what an agent's move that reaches only the Host and the other agents
leaves, and why every move but the reset event is such a move once the run has ended. -/

namespace Sys2Proof.Machine

/-- Settles O41: the move is the reset event, which reads only the parameters and the agents. -/
theorem resetEventAbandonsTheOperation : Obligations.ResetEventAbandonsTheOperation := by
  intro s hp hm
  rw [step_move .reset s hp hm, runMove_reset, resetEvent, takeMove]

/-! ### Changes that only the agents see (R5, R184) -/

@[simp] theorem spendMove_quiet (e : Env) : (spendMove e).quiet = e.quiet := by
  unfold spendMove
  split <;> rfl

@[simp] theorem spendMove_schedule (e : Env) : (spendMove e).schedule = e.schedule.tail := by
  unfold spendMove
  split
  case h_1 m ms scheduled => rw [scheduled, List.tail_cons]
  case h_2 empty => rw [empty, List.tail_nil]

/-- The Host's commands in the order it does them: what is left of those begun, then the script. -/
def HostAgent.commands (a : HostAgent) : List HostCmd := a.current ++ a.script

theorem commands_of_nextCmd {a b : HostAgent} {c : HostCmd} (h : nextCmd a = some (c, b)) :
    a.commands = c :: b.commands := by
  unfold nextCmd at h
  unfold HostAgent.commands
  split at h <;> cases h
  case h_1 cs begun => rw [begun, List.cons_append]
  case h_2 cs noneBegun script => rw [noneBegun, script, List.nil_append, List.nil_append]

/-- From `s` to `t` only the agents around the block changed: the IRQ source is as quiet as it was, and no move and no command is
new. -/
structure OnlyAgents (s t : State) : Prop where
  block : t = { s with env := t.env, host := t.host }
  quiet : t.env.quiet = s.env.quiet
  schedule : t.env.schedule ⊆ s.env.schedule
  commands : t.host.commands ⊆ s.host.commands

namespace OnlyAgents

variable {s t u : State}

theorem refl (s : State) : OnlyAgents s s := ⟨rfl, rfl, List.Subset.refl _, List.Subset.refl _⟩

theorem trans (h : OnlyAgents s t) (h' : OnlyAgents t u) : OnlyAgents s u where
  block := by rw [h'.block, h.block]
  quiet := h'.quiet.trans h.quiet
  schedule := List.Subset.trans h'.schedule h.schedule
  commands := List.Subset.trans h'.commands h.commands

theorem takeMove (s : State) : OnlyAgents s (takeMove s) where
  block := rfl
  quiet := spendMove_quiet s.env
  schedule := (spendMove_schedule s.env).symm ▸ List.tail_subset _
  commands := List.Subset.refl _

theorem takeCmd {c : HostCmd} {a : HostAgent} (hc : nextCmd s.host = some (c, a)) :
    OnlyAgents s { s with host := a } where
  block := rfl
  quiet := rfl
  schedule := List.Subset.refl _
  commands := commands_of_nextCmd hc ▸ List.subset_cons_self c _

/-- A command that puts nothing to the block and makes no edge reaches only the Host, the Transfer Resource and the Line Sink. -/
theorem runCmd {c : HostCmd} (noCall : c.callsBlock = false) (noEdge : c ≠ .edge) (e : runCmd c s = .next t) :
    OnlyAgents s t := by
  have unmoved := refl s
  cases c with
  | request | enqueue | lineCfg | write => cases noCall
  | edge => exact absurd rfl noEdge
  | openSession =>
    rw [Machine.runCmd] at e
    split at e <;> cases e <;> exact ⟨rfl, rfl, unmoved.schedule, unmoved.commands⟩
  | lineReport | closeSession | writeRoom | answer | sink =>
    cases e
    exact ⟨rfl, rfl, unmoved.schedule, unmoved.commands⟩

end OnlyAgents

/-! ### The end of a run (R184) -/

namespace Ended

variable {s t : State}

/-- No command left to the Host puts anything to the block or makes an edge. -/
theorem command (H : Ended s) {c : HostCmd} (hc : c ∈ s.host.commands) : c.callsBlock = false ∧ c ≠ .edge := by
  obtain ⟨-, -, -, noCall, -, -, notInCurrent, notInScript⟩ := H
  refine ⟨noCall c hc, ?_⟩
  rintro rfl
  exact (List.mem_append.1 hc).elim notInCurrent notInScript

theorem nextMove_ne_irqSource (H : Ended s) : nextMove s.env ≠ .irqSource := by
  obtain ⟨-, -, -, -, quiet, unscheduled, -⟩ := H
  unfold nextMove
  split
  case h_1 m ms scheduled =>
    rintro rfl
    exact unscheduled (scheduled ▸ List.mem_cons_self)
  case h_2 =>
    unfold drawnMove
    rw [quiet]
    split
    · nofun
    case h_2 notEdge => exact notEdge rfl

/-- An ended run stays ended while only the agents change. -/
theorem of_onlyAgents (H : Ended s) (h : OnlyAgents s t) : Ended t := by
  have left {c : HostCmd} (hc : c ∈ t.host.commands) := H.command (h.commands hc)
  obtain ⟨idle, latch, port, -, quiet, unscheduled, -⟩ := H
  obtain ⟨block, sameQuiet, schedule, -⟩ := h
  exact ⟨block ▸ idle, block ▸ latch, block ▸ port, fun c hc => (left hc).1, sameQuiet.trans quiet,
    fun hm => unscheduled (schedule hm),
    fun hc => (left (List.mem_append_left _ hc)).2 rfl, fun hc => (left (List.mem_append_right _ hc)).2 rfl⟩

theorem hostMove_onlyAgents (H : Ended s) (e : hostMove s = .next t) : OnlyAgents s t := by
  unfold hostMove at e
  split at e
  case h_1 => cases e; exact .refl s
  case h_2 c a hc =>
    have ⟨noCall, noEdge⟩ := H.command (commands_of_nextCmd hc ▸ List.mem_cons_self)
    split at e
    · cases e; exact .refl s
    · exact (OnlyAgents.takeCmd hc).trans (.runCmd noCall noEdge e)

/-- Every move but the reset event finds nothing to do for the block. -/
theorem step_onlyAgents (H : Ended s) (hp : s.portOut = none) (noReset : nextMove s.env ≠ .reset) (e : step s = .next t) :
    OnlyAgents s t := by
  have moved := OnlyAgents.takeMove s
  have ⟨idle, latch, port, _⟩ := H
  cases hm : nextMove s.env with
  | sequencer pick =>
    cases (idleSequencerDoesNothing s pick hp hm idle latch port).symm.trans e
    exact moved
  | host =>
    rw [step_move .host s hp hm] at e
    exact moved.trans ((H.of_onlyAgents moved).hostMove_onlyAgents e)
  | irqSource => exact absurd hm H.nextMove_ne_irqSource
  | timeBase ticks =>
    have outsideWait : s.phase ≠ .stxWait := idle ▸ nofun
    cases ((timeBaseAdvancesOnlyTheWait s ticks hp hm).2 outsideWait).symm.trans e
    exact moved
  | reset => exact absurd hm noReset

end Ended

/-- Settles O54: only the agents change, and that keeps the end. -/
theorem afterTheEndNothingHappens : Obligations.AfterTheEndNothingHappens := by
  intro s t ended hp noReset e
  have only := ended.step_onlyAgents hp noReset e
  exact ⟨ended.of_onlyAgents only, only.block⟩

end Sys2Proof.Machine
